-- ==== Sys2Proof/Word.lean ====
section
/-! DEFINITION. The word types of the engine: a 24-bit word (00_scope.md R8 `WORD_BITS`, `OFF_BITS`, `PC_BITS`) and the
32-bit transaction code (30_encoding.md R140), and the names the spec gives the areas, the instruction kinds and the mapped
registers. -/

namespace Sys2Proof

/-- A data word, a register, an offset, an address or a queue element: 24 bits (00_scope.md R8, R10). -/
abbrev Word := BitVec 24

/-- The code of a transaction: 32 bits (30_encoding.md R140). -/
abbrev Code := BitVec 32

/-- The two address spaces of the bus (20_memory.md R100); the AREA bit is 0 for X and 1 for Y (30_encoding.md R143). -/
inductive Area where
  | x
  | y
  deriving DecidableEq, Repr, Inhabited

/-- The instruction kind of a read (30_encoding.md R144). -/
inductive Kind where
  | ordinary
  | bitTest
  deriving DecidableEq, Repr, Inhabited

/-- The 25 mapped registers (10_state.md R62). -/
inductive Reg where
  | pctl
  | hckr
  | hcsr
  | hsar
  | htx
  | hrx
  | tx (c : Fin 6)
  | rx (c : Fin 4)
  | saisr
  | saicr
  | tcr
  | tccr
  | rcr
  | rccr
  | chidr
  | odbc
  | embc
  deriving DecidableEq, Repr, Inhabited

end Sys2Proof
end

