-- ==== Sys2Proof/Config.lean ====
section
/-! DEFINITION. The implementation parameters of 00_scope.md R8. The fixed ones are constants; the OPEN ones are the fields of
`Params`. A machine carries its parameters in its state, where no step changes them, so that a claim about every state is a
claim about every parameter value. The machine that `State.reset` gives has the opaque `Config.params`. -/

namespace Sys2Proof

/-- `QCAP`, the capacity of every queue (00_scope.md R8, 42_queue.md R270). -/
def Config.qcap : Nat := 8192

/-- The five peripherals of the bus (00_scope.md R2, 41_bus.md R230). -/
inductive Periph where
  | cgm
  | shi
  | esai
  | ccm
  | chid
  deriving DecidableEq, Repr, Inhabited

/-- `PERIPH_ORDER`: a permutation of the five peripherals, given by which of the peripherals not yet taken comes next. Every
value is a permutation and every permutation has one value (41_bus.md R230). -/
structure PeriphOrder where
  first : Fin 5
  second : Fin 4
  third : Fin 3
  fourth : Fin 2
  deriving DecidableEq, Repr, Inhabited

/-- `DBG_INIT`: the debugger state at construction (00_scope.md R8, 10_state.md R53). -/
inductive DbgInit where
  | stopped
  | running
  deriving DecidableEq, Repr, Inhabited

/-- The OPEN parameters of 00_scope.md R8. -/
structure Params where
  /-- `BACKING_WORDS`: words of backing memory per area. -/
  backingWords : Nat
  /-- `backing_init` of area X, as (offset, word) pairs; an offset not listed holds 0. -/
  initX : List (Nat × Word)
  /-- `backing_init` of area Y, as (offset, word) pairs; an offset not listed holds 0. -/
  initY : List (Nat × Word)
  /-- `CPS`: cycles per sample. -/
  cps : Nat
  /-- `CYC_W`: the width of the core's counter. -/
  cycW : Nat
  /-- `CORE_INDEX`: the index CHIDR reports. -/
  coreIndex : Nat
  /-- `VEC_ESAI_TD`. -/
  vecEsaiTd : Nat
  /-- `VEC_ESAI_TLS`. -/
  vecEsaiTls : Nat
  /-- `VEC_SHI_RNE`. -/
  vecShiRne : Nat
  /-- `VEC_SHI_RFF`. -/
  vecShiRff : Nat
  /-- `VEC_SHI_TD`. -/
  vecShiTd : Nat
  /-- `PERIPH_ORDER`. -/
  order : PeriphOrder
  /-- `DBG_INIT`. -/
  dbgInit : DbgInit
  deriving DecidableEq, Repr, Inhabited

/-- A bus transaction as the core issues it: `BUS_READ` or `BUS_WRITE` (60_exceptions.md R546). -/
inductive BusTxn where
  | read (a : Area) (off : Word) (k : Kind)
  | write (a : Area) (off : Word) (v : Nat)
  deriving DecidableEq, Repr, Inhabited

/-- What one instruction of the core does to the engine (60_exceptions.md R546): its bus transactions, then one EXEC at which
`Counter()` is `counter`; after it the core's program counter is `pc`. -/
structure CoreInstr where
  txns : List BusTxn
  counter : Nat
  pc : Nat
  deriving DecidableEq, Repr, Inhabited

/-- What the engine can see of the core, its opaque collaborator (60_exceptions.md R545): an input of the machine. -/
structure CoreView where
  /-- `getInstructionCounter()`. -/
  counter : Nat
  /-- `getProgramCounter()`. -/
  pc : Nat
  /-- What the instruction at `pc` does. -/
  next : CoreInstr
  deriving DecidableEq, Repr, Inhabited

/-- The parameters of the machine after reset, each OPEN (00_scope.md R8). -/
opaque Config.params : Params

/-- The core as the engine sees it after reset: a free value (DESIGN CHOICE, log 5). -/
opaque Config.coreInit : CoreView

end Sys2Proof
end

