-- ==== Sys2Proof/Syntax.lean ====
section
/-! DEFINITION. The syntax of the engine: its transactions, one constructor of `Instr` for each row of spec/opcode_table.json. -/

namespace Sys2Proof

/-- The transactions (30_encoding.md R140-R149). `v` is the data operand before truncation, `n` the count of `CONT`. -/
inductive Instr where
  /-- `READ PCTL` (46_ancillary.md R473); the KIND bit does not matter. -/
  | readPctl (k : Kind)
  /-- `READ HCKR` (44_shi.md R392); the KIND bit does not matter. -/
  | readHckr (k : Kind)
  /-- `READ HCSR` (44_shi.md R390); the KIND bit does not matter. -/
  | readHcsr (k : Kind)
  /-- `READ HSAR` (44_shi.md R394); the KIND bit does not matter. -/
  | readHsar (k : Kind)
  /-- `READ HTX` (44_shi.md R388); the KIND bit does not matter. -/
  | readHtx (k : Kind)
  /-- `READ TX0` (43_esai.md R331); the KIND bit does not matter. -/
  | readTx0 (k : Kind)
  /-- `READ TX1` (43_esai.md R331); the KIND bit does not matter. -/
  | readTx1 (k : Kind)
  /-- `READ TX2` (43_esai.md R331); the KIND bit does not matter. -/
  | readTx2 (k : Kind)
  /-- `READ TX3` (43_esai.md R331); the KIND bit does not matter. -/
  | readTx3 (k : Kind)
  /-- `READ TX4` (43_esai.md R331); the KIND bit does not matter. -/
  | readTx4 (k : Kind)
  /-- `READ TX5` (43_esai.md R331); the KIND bit does not matter. -/
  | readTx5 (k : Kind)
  /-- `READ RX0` (43_esai.md R332); the KIND bit does not matter. -/
  | readRx0 (k : Kind)
  /-- `READ RX1` (43_esai.md R332); the KIND bit does not matter. -/
  | readRx1 (k : Kind)
  /-- `READ RX2` (43_esai.md R332); the KIND bit does not matter. -/
  | readRx2 (k : Kind)
  /-- `READ RX3` (43_esai.md R332); the KIND bit does not matter. -/
  | readRx3 (k : Kind)
  /-- `READ SAISR` (43_esai.md R334); the KIND bit does not matter. -/
  | readSaisr (k : Kind)
  /-- `READ SAICR` (43_esai.md R341); the KIND bit does not matter. -/
  | readSaicr (k : Kind)
  /-- `READ TCR` (43_esai.md R337); the KIND bit does not matter. -/
  | readTcr (k : Kind)
  /-- `READ TCCR` (43_esai.md R343); the KIND bit does not matter. -/
  | readTccr (k : Kind)
  /-- `READ RCR` (43_esai.md R339); the KIND bit does not matter. -/
  | readRcr (k : Kind)
  /-- `READ RCCR` (43_esai.md R345); the KIND bit does not matter. -/
  | readRccr (k : Kind)
  /-- `READ CHIDR` (46_ancillary.md R471); the KIND bit does not matter. -/
  | readChidr (k : Kind)
  /-- `READ ODBC` (46_ancillary.md R476); the KIND bit does not matter. -/
  | readOdbc (k : Kind)
  /-- `READ EMBC` (46_ancillary.md R475); the KIND bit does not matter. -/
  | readEmbc (k : Kind)
  /-- `READ HRX`, kind Ordinary (44_shi.md R384). -/
  | readHrx
  /-- `READ.BT HRX`, kind BitTest (44_shi.md R385). -/
  | readBtHrx
  /-- `WRITE PCTL, #v` (46_ancillary.md R470). -/
  | writePctl (v : Nat)
  /-- `WRITE HCKR, #v` (44_shi.md R391). -/
  | writeHckr (v : Nat)
  /-- `WRITE HCSR, #v` (44_shi.md R389). -/
  | writeHcsr (v : Nat)
  /-- `WRITE HSAR, #v` (44_shi.md R393). -/
  | writeHsar (v : Nat)
  /-- `WRITE HTX, #v` (44_shi.md R387). -/
  | writeHtx (v : Nat)
  /-- `WRITE HRX, #v` (44_shi.md R386). -/
  | writeHrx (v : Nat)
  /-- `WRITE TX0, #v` (43_esai.md R330). -/
  | writeTx0 (v : Nat)
  /-- `WRITE TX1, #v` (43_esai.md R330). -/
  | writeTx1 (v : Nat)
  /-- `WRITE TX2, #v` (43_esai.md R330). -/
  | writeTx2 (v : Nat)
  /-- `WRITE TX3, #v` (43_esai.md R330). -/
  | writeTx3 (v : Nat)
  /-- `WRITE TX4, #v` (43_esai.md R330). -/
  | writeTx4 (v : Nat)
  /-- `WRITE TX5, #v` (43_esai.md R330). -/
  | writeTx5 (v : Nat)
  /-- `WRITE RX0, #v` (43_esai.md R333). -/
  | writeRx0 (v : Nat)
  /-- `WRITE RX1, #v` (43_esai.md R333). -/
  | writeRx1 (v : Nat)
  /-- `WRITE RX2, #v` (43_esai.md R333). -/
  | writeRx2 (v : Nat)
  /-- `WRITE RX3, #v` (43_esai.md R333). -/
  | writeRx3 (v : Nat)
  /-- `WRITE SAISR, #v` (43_esai.md R335). -/
  | writeSaisr (v : Nat)
  /-- `WRITE SAICR, #v` (43_esai.md R340). -/
  | writeSaicr (v : Nat)
  /-- `WRITE TCR, #v` (43_esai.md R336). -/
  | writeTcr (v : Nat)
  /-- `WRITE TCCR, #v` (43_esai.md R342). -/
  | writeTccr (v : Nat)
  /-- `WRITE RCR, #v` (43_esai.md R338). -/
  | writeRcr (v : Nat)
  /-- `WRITE RCCR, #v` (43_esai.md R344). -/
  | writeRccr (v : Nat)
  /-- `WRITE CHIDR, #v` (46_ancillary.md R472). -/
  | writeChidr (v : Nat)
  /-- `WRITE ODBC, #v` (46_ancillary.md R477). -/
  | writeOdbc (v : Nat)
  /-- `WRITE EMBC, #v` (46_ancillary.md R474). -/
  | writeEmbc (v : Nat)
  /-- `EXEC` (41_bus.md R236). -/
  | exec
  /-- `RESET` (41_bus.md R237). -/
  | reset
  /-- `TERMINATE` (41_bus.md R238). -/
  | terminate
  /-- `HPUSH SHI_RX, #v` (47_host_streams.md R501). -/
  | hpushShiRx (v : Nat)
  /-- `HPUSH ESAI_IN0, #v` (47_host_streams.md R503). -/
  | hpushEsaiIn0 (v : Nat)
  /-- `HPUSH ESAI_IN1, #v` (47_host_streams.md R503). -/
  | hpushEsaiIn1 (v : Nat)
  /-- `HPUSH ESAI_IN2, #v` (47_host_streams.md R503). -/
  | hpushEsaiIn2 (v : Nat)
  /-- `HPUSH ESAI_IN3, #v` (47_host_streams.md R503). -/
  | hpushEsaiIn3 (v : Nat)
  /-- `HPUSH ESAI_IN<c>, #v`, c in 4..7: a no-op (47_host_streams.md R505). -/
  | hpushEsaiIn4to7 (c : Nat) (v : Nat)
  /-- `HPUSH ESAI_IN<c>, #v`, c in 8..15: a no-op (47_host_streams.md R505). -/
  | hpushEsaiIn8to15 (c : Nat) (v : Nat)
  /-- `HPOP SHI_TX` (47_host_streams.md R502). -/
  | hpopShiTx
  /-- `HPOP ESAI_OUT0` (47_host_streams.md R504). -/
  | hpopEsaiOut0
  /-- `HPOP ESAI_OUT1` (47_host_streams.md R504). -/
  | hpopEsaiOut1
  /-- `HPOP ESAI_OUT2` (47_host_streams.md R504). -/
  | hpopEsaiOut2
  /-- `HPOP ESAI_OUT3` (47_host_streams.md R504). -/
  | hpopEsaiOut3
  /-- `HPOP ESAI_OUT4` (47_host_streams.md R504). -/
  | hpopEsaiOut4
  /-- `HPOP ESAI_OUT5` (47_host_streams.md R504). -/
  | hpopEsaiOut5
  /-- `HPOP ESAI_OUT<c>`, c in 6..7: a no-op (47_host_streams.md R505). -/
  | hpopEsaiOut6to7 (c : Nat)
  /-- `HPOP ESAI_OUT<c>`, c in 8..15: a no-op (47_host_streams.md R505). -/
  | hpopEsaiOut8to15 (c : Nat)
  /-- `BKPT.SET addr` (45_debugger.md R431). -/
  | bkptSet (addr : Word)
  /-- `BKPT.DEL addr` (45_debugger.md R432). -/
  | bkptDel (addr : Word)
  /-- `CONT #n` (45_debugger.md R433). -/
  | cont (n : Nat)
  /-- `DSTEP` (45_debugger.md R434). -/
  | dstep
  /-- `BOOT` (47_host_streams.md R507). -/
  | boot
  /-- `READ a:off` of an unmapped offset (41_bus.md R233). -/
  | readBacking (a : Area) (k : Kind) (off : Word)
  /-- `WRITE a:off, #v` of an unmapped offset (41_bus.md R235). -/
  | writeBacking (a : Area) (off : Word) (v : Nat)
  deriving DecidableEq, Repr, Inhabited

end Sys2Proof
end

