-- ==== Sys2Proof/Machine/RegMap.lean ====
section
/-! DEFINITION. The register map of 30_encoding.md R148 (10_state.md R62): which (area, offset) pair is which register. The
decoder looks a bus code up in it, and the bus holds it as `bus.map`. -/

namespace Sys2Proof.Machine

/-- The 25 entries of 10_state.md R62, by area and offset. -/
def regTable : List ((Area × Word) × Reg) :=
  [((.x, 0x7D#24), .pctl),
   ((.x, 0x90#24), .hckr),
   ((.x, 0x91#24), .hcsr),
   ((.x, 0x92#24), .hsar),
   ((.x, 0x93#24), .htx),
   ((.x, 0x94#24), .hrx),
   ((.x, 0xA0#24), .tx 0),
   ((.x, 0xA1#24), .tx 1),
   ((.x, 0xA2#24), .tx 2),
   ((.x, 0xA3#24), .tx 3),
   ((.x, 0xA4#24), .tx 4),
   ((.x, 0xA5#24), .tx 5),
   ((.x, 0xA8#24), .rx 0),
   ((.x, 0xA9#24), .rx 1),
   ((.x, 0xAA#24), .rx 2),
   ((.x, 0xAB#24), .rx 3),
   ((.x, 0xB3#24), .saisr),
   ((.x, 0xB4#24), .saicr),
   ((.x, 0xB5#24), .tcr),
   ((.x, 0xB6#24), .tccr),
   ((.x, 0xB7#24), .rcr),
   ((.x, 0xB8#24), .rccr),
   ((.x, 0xF5#24), .chidr),
   ((.y, 0xE2#24), .odbc),
   ((.y, 0xE6#24), .embc)]

/-- The register at an (area, offset) pair, by exact match (20_memory.md R117), or none for an unmapped pair. -/
def regAt (a : Area) (off : Word) : Option Reg :=
  regTable.lookup (a, off)

/-- The (area, offset) pair of a register (10_state.md R62). -/
def regAddr : Reg → Area × Word
  | .pctl => (.x, 0x7D#24)
  | .hckr => (.x, 0x90#24)
  | .hcsr => (.x, 0x91#24)
  | .hsar => (.x, 0x92#24)
  | .htx => (.x, 0x93#24)
  | .hrx => (.x, 0x94#24)
  | .tx c => (.x, 0xA0#24 + BitVec.ofNat 24 c.val)
  | .rx c => (.x, 0xA8#24 + BitVec.ofNat 24 c.val)
  | .saisr => (.x, 0xB3#24)
  | .saicr => (.x, 0xB4#24)
  | .tcr => (.x, 0xB5#24)
  | .tccr => (.x, 0xB6#24)
  | .rcr => (.x, 0xB7#24)
  | .rccr => (.x, 0xB8#24)
  | .chidr => (.x, 0xF5#24)
  | .odbc => (.y, 0xE2#24)
  | .embc => (.y, 0xE6#24)

end Sys2Proof.Machine
end

