-- ==== Sys2Proof/WellFormed.lean ====
section
/-! DEFINITION. Which terms of `Instr` are transactions of the spec: a channel of a no-op row lies in the row's range
(30_encoding.md R149), and a backing access is at an unmapped (area, offset) pair (R150). Every other term is one. -/

namespace Sys2Proof

/-- The instruction is one that some admitted code stands for (30_encoding.md R149, R150). -/
def Instr.wf : Instr → Bool
  | .readPctl _ => true
  | .readHckr _ => true
  | .readHcsr _ => true
  | .readHsar _ => true
  | .readHtx _ => true
  | .readTx0 _ => true
  | .readTx1 _ => true
  | .readTx2 _ => true
  | .readTx3 _ => true
  | .readTx4 _ => true
  | .readTx5 _ => true
  | .readRx0 _ => true
  | .readRx1 _ => true
  | .readRx2 _ => true
  | .readRx3 _ => true
  | .readSaisr _ => true
  | .readSaicr _ => true
  | .readTcr _ => true
  | .readTccr _ => true
  | .readRcr _ => true
  | .readRccr _ => true
  | .readChidr _ => true
  | .readOdbc _ => true
  | .readEmbc _ => true
  | .readHrx => true
  | .readBtHrx => true
  | .writePctl _ => true
  | .writeHckr _ => true
  | .writeHcsr _ => true
  | .writeHsar _ => true
  | .writeHtx _ => true
  | .writeHrx _ => true
  | .writeTx0 _ => true
  | .writeTx1 _ => true
  | .writeTx2 _ => true
  | .writeTx3 _ => true
  | .writeTx4 _ => true
  | .writeTx5 _ => true
  | .writeRx0 _ => true
  | .writeRx1 _ => true
  | .writeRx2 _ => true
  | .writeRx3 _ => true
  | .writeSaisr _ => true
  | .writeSaicr _ => true
  | .writeTcr _ => true
  | .writeTccr _ => true
  | .writeRcr _ => true
  | .writeRccr _ => true
  | .writeChidr _ => true
  | .writeOdbc _ => true
  | .writeEmbc _ => true
  | .exec => true
  | .reset => true
  | .terminate => true
  | .hpushShiRx _ => true
  | .hpushEsaiIn0 _ => true
  | .hpushEsaiIn1 _ => true
  | .hpushEsaiIn2 _ => true
  | .hpushEsaiIn3 _ => true
  | .hpushEsaiIn4to7 c _ => decide (4 ≤ c ∧ c ≤ 7)
  | .hpushEsaiIn8to15 c _ => decide (8 ≤ c ∧ c ≤ 15)
  | .hpopShiTx => true
  | .hpopEsaiOut0 => true
  | .hpopEsaiOut1 => true
  | .hpopEsaiOut2 => true
  | .hpopEsaiOut3 => true
  | .hpopEsaiOut4 => true
  | .hpopEsaiOut5 => true
  | .hpopEsaiOut6to7 c => decide (6 ≤ c ∧ c ≤ 7)
  | .hpopEsaiOut8to15 c => decide (8 ≤ c ∧ c ≤ 15)
  | .bkptSet _ => true
  | .bkptDel _ => true
  | .cont _ => true
  | .dstep => true
  | .boot => true
  | .readBacking a _ off => (Machine.regAt a off).isNone
  | .writeBacking a off _ => (Machine.regAt a off).isNone

end Sys2Proof
end

