-- ==== Sys2Proof/Decode.lean ====
section
/-! DEFINITION. The decoder of 30_encoding.md: every (code, operand) pair gives one transaction or is refused by name
(R150, R151, R160); after it the encoder (R141, R142, R148, R149), and the host's `decodeTableWord`. -/

namespace Sys2Proof

/-- Why a code is not admitted: the clauses of 30_encoding.md R160. -/
inductive Reject where
  /-- (a) OP is 0xC to 0xF. -/
  | reservedOp
  /-- (b) RSV is not 0. -/
  | reservedBits
  /-- (c) AREA is 1 in a code that is no bus access. -/
  | areaBit
  /-- (d) KIND is 1 in a code that is no bus read. -/
  | kindBit
  /-- (e) ARG is not 0 in an operation that has none. -/
  | argument
  /-- (f) The stream id is absent or of the other direction. -/
  | stream
  /-- (g) The operand is not 0 in an operation that has none. -/
  | operand
  deriving DecidableEq, Repr

/-- The fields of a code (30_encoding.md R141). -/
structure Fields where
  op : BitVec 4
  area : BitVec 1
  kind : BitVec 1
  rsv : BitVec 2
  arg : Word
  deriving DecidableEq, Repr

/-- The fields at their bits (30_encoding.md R141). -/
def fieldsOf (code : Code) : Fields where
  op := code.extractLsb' 28 4
  area := code.extractLsb' 27 1
  kind := code.extractLsb' 26 1
  rsv := code.extractLsb' 24 2
  arg := code.extractLsb' 0 24

/-- The code whose fields are these (30_encoding.md R141). -/
def codeOf (f : Fields) : Code :=
  f.op ++ f.area ++ f.kind ++ f.rsv ++ f.arg

/-- AREA: 0 is X, 1 is Y (30_encoding.md R143). -/
def areaOfBit (b : BitVec 1) : Area :=
  if b = 1#1 then .y else .x

/-- KIND: 0 is Ordinary, 1 is BitTest (30_encoding.md R144). -/
def kindOfBit (b : BitVec 1) : Kind :=
  if b = 1#1 then .bitTest else .ordinary

/-- The AREA bit (30_encoding.md R143). -/
def areaBitOf : Area → BitVec 1
  | .x => 0#1
  | .y => 1#1

/-- The KIND bit (30_encoding.md R144). -/
def kindBitOf : Kind → BitVec 1
  | .ordinary => 0#1
  | .bitTest => 1#1

/-- The operations whose ARG must be 0: EXEC, RESET, TERMINATE, DBG_CONTINUE, DBG_EXEC, BOOT_SHI (30_encoding.md R160 (e)). -/
def opHasNoArg (op : BitVec 4) : Bool :=
  op = 0x2#4 || op = 0x3#4 || op = 0x4#4 || op = 0x9#4 || op = 0xA#4 || op = 0xB#4

/-- The operations that take an operand: BUS_WRITE, HOST_PUSH, DBG_CONTINUE (30_encoding.md R147). -/
def opHasOperand (op : BitVec 4) : Bool :=
  op = 0x1#4 || op = 0x5#4 || op = 0x9#4

/-- `HOST_PUSH` by its stream id (30_encoding.md R149). -/
def decodePush (arg : Word) (v : Nat) : Except Reject Instr :=
  if arg = 0x000#24 then .ok (.hpushShiRx v)
  else if arg = 0x010#24 then .ok (.hpushEsaiIn0 v)
  else if arg = 0x011#24 then .ok (.hpushEsaiIn1 v)
  else if arg = 0x012#24 then .ok (.hpushEsaiIn2 v)
  else if arg = 0x013#24 then .ok (.hpushEsaiIn3 v)
  else if 0x014 ≤ arg.toNat ∧ arg.toNat ≤ 0x017 then .ok (.hpushEsaiIn4to7 (arg.toNat - 0x010) v)
  else if 0x018 ≤ arg.toNat ∧ arg.toNat ≤ 0x01F then .ok (.hpushEsaiIn8to15 (arg.toNat - 0x010) v)
  else .error .stream

/-- `HOST_POP` by its stream id (30_encoding.md R149). -/
def decodePop (arg : Word) : Except Reject Instr :=
  if arg = 0x001#24 then .ok .hpopShiTx
  else if arg = 0x020#24 then .ok .hpopEsaiOut0
  else if arg = 0x021#24 then .ok .hpopEsaiOut1
  else if arg = 0x022#24 then .ok .hpopEsaiOut2
  else if arg = 0x023#24 then .ok .hpopEsaiOut3
  else if arg = 0x024#24 then .ok .hpopEsaiOut4
  else if arg = 0x025#24 then .ok .hpopEsaiOut5
  else if 0x026 ≤ arg.toNat ∧ arg.toNat ≤ 0x027 then .ok (.hpopEsaiOut6to7 (arg.toNat - 0x020))
  else if 0x028 ≤ arg.toNat ∧ arg.toNat ≤ 0x02F then .ok (.hpopEsaiOut8to15 (arg.toNat - 0x020))
  else .error .stream

/-- `BUS_READ` by the register map: a mapped pair is its register's row, any other the backing row (30_encoding.md R150 (3)). -/
def decodeRead (a : Area) (k : Kind) (off : Word) : Instr :=
  match Machine.regAt a off with
  | some .pctl => .readPctl k
  | some .hckr => .readHckr k
  | some .hcsr => .readHcsr k
  | some .hsar => .readHsar k
  | some .htx => .readHtx k
  | some .hrx =>
    match k with
    | .ordinary => .readHrx
    | .bitTest => .readBtHrx
  | some (.tx 0) => .readTx0 k
  | some (.tx 1) => .readTx1 k
  | some (.tx 2) => .readTx2 k
  | some (.tx 3) => .readTx3 k
  | some (.tx 4) => .readTx4 k
  | some (.tx 5) => .readTx5 k
  | some (.rx 0) => .readRx0 k
  | some (.rx 1) => .readRx1 k
  | some (.rx 2) => .readRx2 k
  | some (.rx 3) => .readRx3 k
  | some (.saisr) => .readSaisr k
  | some (.saicr) => .readSaicr k
  | some (.tcr) => .readTcr k
  | some (.tccr) => .readTccr k
  | some (.rcr) => .readRcr k
  | some (.rccr) => .readRccr k
  | some (.chidr) => .readChidr k
  | some (.odbc) => .readOdbc k
  | some (.embc) => .readEmbc k
  | none => .readBacking a k off

/-- `BUS_WRITE` by the register map: a mapped pair is its register's row, any other the backing row (30_encoding.md R150 (3)). -/
def decodeWrite (a : Area) (off : Word) (v : Nat) : Instr :=
  match Machine.regAt a off with
  | some (.pctl) => .writePctl v
  | some (.hckr) => .writeHckr v
  | some (.hcsr) => .writeHcsr v
  | some (.hsar) => .writeHsar v
  | some (.htx) => .writeHtx v
  | some (.hrx) => .writeHrx v
  | some (.tx 0) => .writeTx0 v
  | some (.tx 1) => .writeTx1 v
  | some (.tx 2) => .writeTx2 v
  | some (.tx 3) => .writeTx3 v
  | some (.tx 4) => .writeTx4 v
  | some (.tx 5) => .writeTx5 v
  | some (.rx 0) => .writeRx0 v
  | some (.rx 1) => .writeRx1 v
  | some (.rx 2) => .writeRx2 v
  | some (.rx 3) => .writeRx3 v
  | some (.saisr) => .writeSaisr v
  | some (.saicr) => .writeSaicr v
  | some (.tcr) => .writeTcr v
  | some (.tccr) => .writeTccr v
  | some (.rcr) => .writeRcr v
  | some (.rccr) => .writeRccr v
  | some (.chidr) => .writeChidr v
  | some (.odbc) => .writeOdbc v
  | some (.embc) => .writeEmbc v
  | none => .writeBacking a off v

/-- Dispatch on OP of a code that no field check refuses (30_encoding.md R142, R150 (2)). -/
def decodeOp (f : Fields) (operand : Nat) : Except Reject Instr :=
  if f.op = 0x0#4 then .ok (decodeRead (areaOfBit f.area) (kindOfBit f.kind) f.arg)
  else if f.op = 0x1#4 then .ok (decodeWrite (areaOfBit f.area) f.arg operand)
  else if f.op = 0x2#4 then .ok .exec
  else if f.op = 0x3#4 then .ok .reset
  else if f.op = 0x4#4 then .ok .terminate
  else if f.op = 0x5#4 then decodePush f.arg operand
  else if f.op = 0x6#4 then decodePop f.arg
  else if f.op = 0x7#4 then .ok (.bkptSet f.arg)
  else if f.op = 0x8#4 then .ok (.bkptDel f.arg)
  else if f.op = 0x9#4 then .ok (.cont operand)
  else if f.op = 0xA#4 then .ok .dstep
  else if f.op = 0xB#4 then .ok .boot
  else .error .reservedOp

/-- The field and operand checks of 30_encoding.md R160 (a)-(e) and (g), in that order. -/
def checkFields (f : Fields) (operand : Nat) : Option Reject :=
  if 0xC ≤ f.op.toNat then some .reservedOp
  else if f.rsv ≠ 0#2 then some .reservedBits
  else if f.area = 1#1 ∧ f.op ≠ 0x0#4 ∧ f.op ≠ 0x1#4 then some .areaBit
  else if f.kind = 1#1 ∧ f.op ≠ 0x0#4 then some .kindBit
  else if opHasNoArg f.op = true ∧ f.arg ≠ 0#24 then some .argument
  else if opHasOperand f.op = false ∧ operand ≠ 0 then some .operand
  else none

/-- The decoder, total on every code with every operand (30_encoding.md R150, R151). -/
def decode (code : Code) (operand : Nat) : Except Reject Instr :=
  match checkFields (fieldsOf code) operand with
  | some r => .error r
  | none => decodeOp (fieldsOf code) operand

/-- The code of a bus access (30_encoding.md R141, R142). -/
def busCode (op : BitVec 4) (a : Area) (k : Kind) (off : Word) : Code :=
  codeOf { op := op, area := areaBitOf a, kind := kindBitOf k, rsv := 0#2, arg := off }

/-- The code of an operation that is no bus access (30_encoding.md R141, R142). -/
def opCode (op : BitVec 4) (arg : Word) : Code :=
  codeOf { op := op, area := 0#1, kind := 0#1, rsv := 0#2, arg := arg }

/-- The encoder: the (code, operand) pair of a well-formed instruction (30_encoding.md R141, R142, R147-R149). -/
def encode : Instr → Code × Nat
  | .readPctl k => (busCode 0x0#4 .x k 0x7D#24, 0)
  | .readHckr k => (busCode 0x0#4 .x k 0x90#24, 0)
  | .readHcsr k => (busCode 0x0#4 .x k 0x91#24, 0)
  | .readHsar k => (busCode 0x0#4 .x k 0x92#24, 0)
  | .readHtx k => (busCode 0x0#4 .x k 0x93#24, 0)
  | .readTx0 k => (busCode 0x0#4 .x k 0xA0#24, 0)
  | .readTx1 k => (busCode 0x0#4 .x k 0xA1#24, 0)
  | .readTx2 k => (busCode 0x0#4 .x k 0xA2#24, 0)
  | .readTx3 k => (busCode 0x0#4 .x k 0xA3#24, 0)
  | .readTx4 k => (busCode 0x0#4 .x k 0xA4#24, 0)
  | .readTx5 k => (busCode 0x0#4 .x k 0xA5#24, 0)
  | .readRx0 k => (busCode 0x0#4 .x k 0xA8#24, 0)
  | .readRx1 k => (busCode 0x0#4 .x k 0xA9#24, 0)
  | .readRx2 k => (busCode 0x0#4 .x k 0xAA#24, 0)
  | .readRx3 k => (busCode 0x0#4 .x k 0xAB#24, 0)
  | .readSaisr k => (busCode 0x0#4 .x k 0xB3#24, 0)
  | .readSaicr k => (busCode 0x0#4 .x k 0xB4#24, 0)
  | .readTcr k => (busCode 0x0#4 .x k 0xB5#24, 0)
  | .readTccr k => (busCode 0x0#4 .x k 0xB6#24, 0)
  | .readRcr k => (busCode 0x0#4 .x k 0xB7#24, 0)
  | .readRccr k => (busCode 0x0#4 .x k 0xB8#24, 0)
  | .readChidr k => (busCode 0x0#4 .x k 0xF5#24, 0)
  | .readOdbc k => (busCode 0x0#4 .y k 0xE2#24, 0)
  | .readEmbc k => (busCode 0x0#4 .y k 0xE6#24, 0)
  | .readHrx => (busCode 0x0#4 .x .ordinary 0x94#24, 0)
  | .readBtHrx => (busCode 0x0#4 .x .bitTest 0x94#24, 0)
  | .writePctl v => (busCode 0x1#4 .x .ordinary 0x7D#24, v)
  | .writeHckr v => (busCode 0x1#4 .x .ordinary 0x90#24, v)
  | .writeHcsr v => (busCode 0x1#4 .x .ordinary 0x91#24, v)
  | .writeHsar v => (busCode 0x1#4 .x .ordinary 0x92#24, v)
  | .writeHtx v => (busCode 0x1#4 .x .ordinary 0x93#24, v)
  | .writeHrx v => (busCode 0x1#4 .x .ordinary 0x94#24, v)
  | .writeTx0 v => (busCode 0x1#4 .x .ordinary 0xA0#24, v)
  | .writeTx1 v => (busCode 0x1#4 .x .ordinary 0xA1#24, v)
  | .writeTx2 v => (busCode 0x1#4 .x .ordinary 0xA2#24, v)
  | .writeTx3 v => (busCode 0x1#4 .x .ordinary 0xA3#24, v)
  | .writeTx4 v => (busCode 0x1#4 .x .ordinary 0xA4#24, v)
  | .writeTx5 v => (busCode 0x1#4 .x .ordinary 0xA5#24, v)
  | .writeRx0 v => (busCode 0x1#4 .x .ordinary 0xA8#24, v)
  | .writeRx1 v => (busCode 0x1#4 .x .ordinary 0xA9#24, v)
  | .writeRx2 v => (busCode 0x1#4 .x .ordinary 0xAA#24, v)
  | .writeRx3 v => (busCode 0x1#4 .x .ordinary 0xAB#24, v)
  | .writeSaisr v => (busCode 0x1#4 .x .ordinary 0xB3#24, v)
  | .writeSaicr v => (busCode 0x1#4 .x .ordinary 0xB4#24, v)
  | .writeTcr v => (busCode 0x1#4 .x .ordinary 0xB5#24, v)
  | .writeTccr v => (busCode 0x1#4 .x .ordinary 0xB6#24, v)
  | .writeRcr v => (busCode 0x1#4 .x .ordinary 0xB7#24, v)
  | .writeRccr v => (busCode 0x1#4 .x .ordinary 0xB8#24, v)
  | .writeChidr v => (busCode 0x1#4 .x .ordinary 0xF5#24, v)
  | .writeOdbc v => (busCode 0x1#4 .y .ordinary 0xE2#24, v)
  | .writeEmbc v => (busCode 0x1#4 .y .ordinary 0xE6#24, v)
  | .exec => (opCode 0x2#4 0#24, 0)
  | .reset => (opCode 0x3#4 0#24, 0)
  | .terminate => (opCode 0x4#4 0#24, 0)
  | .hpushShiRx v => (opCode 0x5#4 0x000#24, v)
  | .hpushEsaiIn0 v => (opCode 0x5#4 0x010#24, v)
  | .hpushEsaiIn1 v => (opCode 0x5#4 0x011#24, v)
  | .hpushEsaiIn2 v => (opCode 0x5#4 0x012#24, v)
  | .hpushEsaiIn3 v => (opCode 0x5#4 0x013#24, v)
  | .hpushEsaiIn4to7 c v => (opCode 0x5#4 (BitVec.ofNat 24 (0x010 + c)), v)
  | .hpushEsaiIn8to15 c v => (opCode 0x5#4 (BitVec.ofNat 24 (0x010 + c)), v)
  | .hpopShiTx => (opCode 0x6#4 0x001#24, 0)
  | .hpopEsaiOut0 => (opCode 0x6#4 0x020#24, 0)
  | .hpopEsaiOut1 => (opCode 0x6#4 0x021#24, 0)
  | .hpopEsaiOut2 => (opCode 0x6#4 0x022#24, 0)
  | .hpopEsaiOut3 => (opCode 0x6#4 0x023#24, 0)
  | .hpopEsaiOut4 => (opCode 0x6#4 0x024#24, 0)
  | .hpopEsaiOut5 => (opCode 0x6#4 0x025#24, 0)
  | .hpopEsaiOut6to7 c => (opCode 0x6#4 (BitVec.ofNat 24 (0x020 + c)), 0)
  | .hpopEsaiOut8to15 c => (opCode 0x6#4 (BitVec.ofNat 24 (0x020 + c)), 0)
  | .bkptSet addr => (opCode 0x7#4 addr, 0)
  | .bkptDel addr => (opCode 0x8#4 addr, 0)
  | .cont n => (opCode 0x9#4 0#24, n)
  | .dstep => (opCode 0xA#4 0#24, 0)
  | .boot => (opCode 0xB#4 0#24, 0)
  | .readBacking a k off => (busCode 0x0#4 a k off, 0)
  | .writeBacking a off v => (busCode 0x1#4 a .ordinary off, v)

/-- What the decoder reads from a table row's bits: the low 32 bits are the code, any bits above them the operand, and every
bit from `nbits` up is 0 (30_encoding.md R140). -/
def decodeTableWord (nbits w : Nat) : Option Instr :=
  match decode (BitVec.ofNat 32 (w % 2 ^ nbits)) (w % 2 ^ nbits / 2 ^ 32) with
  | .ok i => some i
  | .error _ => none

end Sys2Proof
end

