-- ==== Sys2Proof/Machine/State.lean ====
section
/-! DEFINITION. The state of the engine as plain data (10_state.md R30-R58), the reasons a step can stop, and the state after
reset, which is the construction (power-on) state of 10_state.md R58 (DESIGN CHOICE, log 1). -/

namespace Sys2Proof.Machine

/-- The agents that drive the engine (00_scope.md R12). -/
inductive Agent where
  /-- E, the execution agent. -/
  | e
  /-- A host agent; there are any number of them. -/
  | h (n : Nat)
  /-- A controller agent; there are any number of them. -/
  | c (n : Nat)
  /-- S, the supervisor. -/
  | s
  deriving DecidableEq, Repr, Inhabited

/-- A BoundedQueue: its words, oldest first, and its shutdown flag (10_state.md R56). -/
structure Queue where
  items : List Word
  shut : Bool
  deriving DecidableEq, Repr, Inhabited

/-- The twelve queues (42_queue.md R280). -/
inductive QId where
  | shiRx
  | shiTx
  | out (c : Fin 6)
  | inp (c : Fin 4)
  deriving DecidableEq, Repr, Inhabited

/-- The backing words of one area that differ from `backing_init`, as (offset, word) pairs with rising offsets
(10_state.md R33; log 7). -/
abbrev Memory := List (Nat × Word)

/-- The bus (10_state.md R31-R33). -/
structure BusState where
  /-- `bus.map`. -/
  map : List ((Area × Word) × Reg)
  /-- `bus.bound`. -/
  bound : Bool
  /-- `bus.mem` of area X. -/
  memX : Memory
  /-- `bus.mem` of area Y. -/
  memY : Memory
  deriving DecidableEq, Repr

/-- The SHI (10_state.md R34-R38). -/
structure ShiState where
  hcsr : BitVec 14
  hckr : Word
  hsar : Word
  rxq : Queue
  txq : Queue
  pendRx : Nat
  pendTx : Nat
  deriving DecidableEq, Repr

/-- The ESAI (10_state.md R39-R49). -/
structure EsaiState where
  tcr : Word
  rcr : Word
  tfs : Bool
  tue : Bool
  tde : Bool
  saicr : Word
  tccr : Word
  rccr : Word
  txw : Vector Word 6
  rxw : Vector Word 4
  wmask : BitVec 6
  stRead : Bool
  acc : Nat
  snap : Nat
  outq : Vector Queue 6
  inq : Vector Queue 4
  deriving DecidableEq, Repr

/-- `dbg.mode` (10_state.md R53). -/
inductive DbgMode where
  | stopped
  | running (rem : Option Nat)
  deriving DecidableEq, Repr, Inhabited

/-- The debugger (10_state.md R53, R54); `bps` is a set, held as a strictly rising list. -/
structure DbgState where
  mode : DbgMode
  bps : List Word
  deriving DecidableEq, Repr

/-- `E.status` (10_state.md R55). -/
inductive EStatus where
  | live
  | aborted
  deriving DecidableEq, Repr, Inhabited

/-- The queue primitives at which a transaction of E can hold, with all that the rest of the transaction needs
(70_reset_and_hazards.md R585; 00_scope.md R13). -/
inductive HoldPoint where
  /-- The pop of `READ HRX` (44_shi.md R384). -/
  | hrxRead
  /-- The push of `WRITE HRX` (44_shi.md R386). -/
  | hrxWrite (v : Word)
  /-- The push of `WRITE HTX` (44_shi.md R387). -/
  | htxWrite (v : Word)
  /-- The push to output channel `c` in an ESAI tick; `rest` are the peripherals whose `exec` comes after the ESAI's
  (43_esai.md R314, 41_bus.md R236). -/
  | esaiOut (c : Fin 6) (rest : List Periph)
  /-- BOOT, popping the count (47_host_streams.md R507). -/
  | bootCount
  /-- BOOT, popping the address after the count `n`. -/
  | bootAddr (n : Word)
  /-- BOOT, popping the program word for address `next`, with `left` words to go after it; `start` is the address popped. -/
  | bootWord (start next : Word) (left : Nat)
  deriving DecidableEq, Repr

/-- What E's transaction does after the part that holds is done. -/
inductive Frame where
  /-- The part is the whole transaction. -/
  | bare
  /-- It is a bus transaction of the instruction a DSTEP executes; `rest` come after it, then the EXEC (45_debugger.md R434). -/
  | coreTxns (rest : List BusTxn)
  /-- It is the EXEC of the instruction a DSTEP executes. -/
  | coreExec
  deriving DecidableEq, Repr

/-- Where E is held (00_scope.md R13). -/
inductive Held where
  /-- DSTEP, while the debugger is Stopped (45_debugger.md R434). -/
  | debugger
  /-- At a queue primitive. -/
  | queue (point : HoldPoint) (frame : Frame)
  deriving DecidableEq, Repr

/-- The execution agent: its status (10_state.md R55) and, while it is held, where. -/
structure ExecAgent where
  status : EStatus
  held : Option Held
  deriving DecidableEq, Repr

/-- A host transaction on a queue (47_host_streams.md R500). -/
inductive HostOp where
  | push (q : QId) (v : Word)
  | pop (q : QId)
  deriving DecidableEq, Repr

/-- The diagnostic events (60_exceptions.md R536). -/
inductive Diag where
  | memRead (a : Area) (off w : Word)
  | memWrite (a : Area) (off w : Word)
  | outOfBounds (a : Area) (off : Word)
  | configurationHazard (a : Area) (off : Word)
  | disabledChannel (r : Reg)
  | writeOnlyRead (r : Reg)
  | readOnlyWrite (r : Reg)
  deriving DecidableEq, Repr

/-- The events of `hist` (10_state.md R57). -/
inductive Event where
  | inject (vec : Nat)
  | pmemSet (addr w : Word)
  | setPc (addr : Word)
  | log (d : Diag)
  deriving DecidableEq, Repr

/-- The result of a transaction that is done (00_scope.md R13). -/
inductive Result where
  | unit
  | word (w : Word)
  | endOfStream
  deriving DecidableEq, Repr

/-- How a transaction that goes on in a next state has ended (00_scope.md R13). -/
inductive Ending where
  | done (r : Result)
  /-- `Abort(QueueShutdown)`. -/
  | abort
  deriving DecidableEq, Repr

/-- An ending given back to the agent that issued the transaction. -/
structure Reply where
  agent : Agent
  ending : Ending
  deriving DecidableEq, Repr

/-- An entry of the schedule (DESIGN CHOICE, log 3). -/
inductive Entry where
  /-- The agent issues the transaction (code, operand). -/
  | issue (ag : Agent) (code : Code) (operand : Nat)
  /-- The agent, held in a transaction, tries to go on with it (42_queue.md R277). -/
  | resume (ag : Agent)
  /-- The core moves on by itself: this is what the engine sees of it from now on (log 5). -/
  | core (v : CoreView)
  deriving DecidableEq, Repr

/-- The engine's state. -/
structure State where
  /-- The parameters of 00_scope.md R8; no step changes them (log 2). -/
  cfg : Params
  /-- 10_state.md R31-R33. -/
  bus : BusState
  /-- 10_state.md R34-R38. -/
  shi : ShiState
  /-- 10_state.md R39-R49. -/
  esai : EsaiState
  /-- `ccm.embc` (10_state.md R50). -/
  embc : Word
  /-- 10_state.md R53, R54. -/
  dbg : DbgState
  /-- 10_state.md R55, and E's hold (log 4). -/
  e : ExecAgent
  /-- The host agents that are held, each with its transaction (log 4). -/
  hosts : List (Agent × HostOp)
  /-- 10_state.md R57, oldest first. -/
  hist : List Event
  /-- The endings given back to the agents, oldest first (log 6). -/
  replies : List Reply
  /-- What the engine sees of the core (log 5). -/
  core : CoreView
  /-- The schedule still to come (log 3). -/
  sched : List Entry
  /-- The agent whose transaction is being run (log 3). -/
  issuer : Agent
  deriving DecidableEq, Repr

/-- Why a step stops with a fault: the model faults of 60_exceptions.md R533, exactly these three. -/
inductive Fault where
  /-- `Front` of an empty queue: raised by `READ.BT HRX` while rxq is empty (42_queue.md R273, 44_shi.md R385). Safe: the
  source leaves the case undefined. -/
  | peekEmpty
  /-- EXEC, DSTEP or BOOT before the first RESET (41_bus.md R239). Safe: the source defines nothing there. -/
  | unboundCore
  /-- A Set view test at a position beyond its width (40_bitfield.md R204). Safe; no instruction raises it. -/
  | bitFieldTestRange
  deriving DecidableEq, Repr

/-- Why a step is refused. -/
inductive Refusal where
  /-- An arm of `exec` without a meaning: raised by none, every instruction has one. Safe. -/
  | notModelled (mnemonic : String)
  /-- The code is not admitted: `Refused(Encoding)`, raised by `step` (30_encoding.md R160, 60_exceptions.md R534). Safe: no
  state changes. -/
  | encoding (why : Reject)
  /-- The schedule gives the transaction to an agent kind that 30_encoding.md R142 does not give it: raised by `step` (60_exceptions.md
  R544). Safe: no state changes. -/
  | wrongAgent
  deriving DecidableEq, Repr

/-- The empty open queue (10_state.md R56). -/
def Queue.init : Queue := ⟨[], false⟩

/-- `dbg.mode` at construction (10_state.md R53, R58). -/
def dbgModeOf : DbgInit → DbgMode
  | .stopped => .stopped
  | .running => .running none

/-- The construction state of 10_state.md R58, for given parameters and a given view of the core. -/
def State.construct (p : Params) (core : CoreView) : State where
  cfg := p
  bus := { map := regTable, bound := false, memX := [], memY := [] }
  shi := { hcsr := 0, hckr := 0, hsar := 0, rxq := Queue.init, txq := Queue.init, pendRx := 0, pendTx := 0 }
  esai :=
    { tcr := 0, rcr := 0, tfs := false, tue := false, tde := false, saicr := 0, tccr := 0, rccr := 0,
      txw := #v[0, 0, 0, 0, 0, 0], rxw := #v[0, 0, 0, 0], wmask := 0, stRead := false, acc := 0, snap := 0,
      outq := #v[Queue.init, Queue.init, Queue.init, Queue.init, Queue.init, Queue.init],
      inq := #v[Queue.init, Queue.init, Queue.init, Queue.init] }
  embc := 0
  dbg := { mode := dbgModeOf p.dbgInit, bps := [] }
  e := { status := .live, held := none }
  hosts := []
  hist := []
  replies := []
  core := core
  sched := []
  issuer := .e

/-- The machine after reset: the construction state of 10_state.md R58 with every OPEN parameter open. -/
def State.reset : State :=
  State.construct Config.params Config.coreInit

end Sys2Proof.Machine
end

