-- ==== Sys2Proof/Machine/Operands.lean ====
section
/-! DEFINITION. Operands: the truncation of data (20_memory.md R107) and the BitField views of 40_bitfield.md, pure functions
of a word. -/

namespace Sys2Proof.Machine

/-- `trunc_24`: the data word of a bus write or a host push (20_memory.md R107). -/
def trunc24 (v : Nat) : Word :=
  BitVec.ofNat 24 v

/-- A field descriptor: offset and width. It carries the proof that it is well-formed, so an ill-formed pair is no descriptor: a
definition that writes one is refused when the model is built, and no view can be given one (40_bitfield.md R200). -/
structure Desc where
  o : Nat
  w : Nat
  wf : 1 ≤ w ∧ o + w ≤ 24
  deriving DecidableEq, Repr

/-- The descriptor of a pair, where the pair is well-formed (40_bitfield.md R200). -/
def Desc.ofPair (o w : Nat) : Option Desc :=
  if h : 1 ≤ w ∧ o + w ≤ 24 then some ⟨o, w, h⟩ else none

/-- The Bit accessor at a bit of the word (40_bitfield.md R200). -/
def Desc.bit (o : Fin 24) : Desc :=
  ⟨o.val, 1, Nat.le_refl 1, o.isLt⟩

/-- Two fields share no bit (40_bitfield.md R209). -/
def Desc.disjoint (d d' : Desc) : Bool :=
  decide (d.o + d.w ≤ d'.o ∨ d'.o + d'.w ≤ d.o)

/-- The mask of a field; `2 ^ w` is exact, before the cut to 24 bits (40_bitfield.md R201). -/
def fieldMask (d : Desc) : Word :=
  BitVec.ofNat 24 (2 ^ d.w - 1) <<< d.o

/-- The Bit view; its offset is that of a bit of the word (40_bitfield.md R202). -/
def bitView (o : Fin 24) (x : Word) : Bool :=
  x.getLsbD o.val

/-- The Packed view: the field as an unsigned natural (40_bitfield.md R203). -/
def packedView (d : Desc) (x : Word) : Nat :=
  (x >>> d.o).toNat % 2 ^ d.w

/-- The test of a Set view within its width (40_bitfield.md R204). -/
def setTest (d : Desc) (pos : Nat) (x : Word) : Bool :=
  (packedView d x).testBit pos

/-- The test of a Set view, with its fault beyond the width (40_bitfield.md R204, 60_exceptions.md R533). -/
def setTestChecked (d : Desc) (pos : Nat) (x : Word) : Except Fault Bool :=
  if pos < d.w then .ok (setTest d pos x) else .error .bitFieldTestRange

/-- A sub-view: a field with what it holds. It carries the proof that the value fits the field, so no raw value can be put into
one, and none it has can be overwritten by one: such a term is refused when the model is built. A sub-view comes from one of the two
constructions below, and goes into a word only by `mergeView` (40_bitfield.md R208). -/
structure SubView where
  desc : Desc
  val : Nat
  fits : val < 2 ^ desc.w
  deriving DecidableEq, Repr

/-- Construction from a raw natural truncates to the width (40_bitfield.md R205). -/
def subViewOfRaw (d : Desc) (v : Nat) : SubView :=
  ⟨d, v % 2 ^ d.w, Nat.mod_lt _ (Nat.two_pow_pos _)⟩

/-- Construction from a whole word takes the field (40_bitfield.md R206). -/
def subViewOfWord (d : Desc) (x : Word) : SubView :=
  ⟨d, packedView d x, Nat.mod_lt _ (Nat.two_pow_pos _)⟩

/-- Merge assignment of a sub-view into a word (40_bitfield.md R207). -/
def mergeView (f : SubView) (x : Word) : Word :=
  (x &&& ~~~ fieldMask f.desc) ||| (BitVec.ofNat 24 (f.val % 2 ^ f.desc.w) <<< f.desc.o)

end Sys2Proof.Machine
end

