-- ==== Sys2Proof/Machine/Flags.lean ====
section
/-! DEFINITION. The fields and flags of the control and status registers, at the descriptors of 40_bitfield.md R210. -/

namespace Sys2Proof.Machine

/-- TCR.TE (40_bitfield.md R210). -/
def descTE : Desc := ⟨0, 6, by decide⟩
/-- TCR.TIE (40_bitfield.md R210). -/
def bitTIE : Fin 24 := 22
/-- TCR.TLIE (40_bitfield.md R210). -/
def bitTLIE : Fin 24 := 23
/-- RCR.RE (40_bitfield.md R210). -/
def descRE : Desc := ⟨0, 4, by decide⟩
/-- SAISR.TFS (40_bitfield.md R210). -/
def bitTFS : Fin 24 := 13
/-- SAISR.TUE (40_bitfield.md R210). -/
def bitTUE : Fin 24 := 14
/-- SAISR.TDE (40_bitfield.md R210). -/
def bitTDE : Fin 24 := 15
/-- HCSR.HEN (40_bitfield.md R210). -/
def bitHEN : Fin 24 := 0
/-- HCSR.HTIE (40_bitfield.md R210). -/
def bitHTIE : Fin 24 := 11
/-- HCSR.HRIE (40_bitfield.md R210). -/
def descHRIE : Desc := ⟨12, 2, by decide⟩
/-- HCSR.HRNE (40_bitfield.md R210). -/
def bitHRNE : Fin 24 := 17

/-- The descriptors the engine reads: the Set and Packed fields, and the Bit accessors (40_bitfield.md R210). -/
def engineDescs : List Desc :=
  [descTE, .bit bitTIE, .bit bitTLIE, descRE, .bit bitTFS, .bit bitTUE, .bit bitTDE, .bit bitHEN, .bit bitHTIE, descHRIE,
    .bit bitHRNE]

/-- The transmit enable set, as its value (43_esai.md shorthand `TE`). -/
def EsaiState.te (es : EsaiState) : Nat := packedView descTE es.tcr

/-- `TE.test(c)`: output channel `c` is enabled (43_esai.md R310). -/
def EsaiState.teTest (es : EsaiState) (c : Fin 6) : Bool := setTest descTE c.val es.tcr

/-- `RE.test(c)`: input channel `c` is enabled (43_esai.md R310). -/
def EsaiState.reTest (es : EsaiState) (c : Fin 4) : Bool := setTest descRE c.val es.rcr

/-- TIE (43_esai.md shorthand). -/
def EsaiState.tie (es : EsaiState) : Bool := bitView bitTIE es.tcr

/-- TLIE (43_esai.md shorthand). -/
def EsaiState.tlie (es : EsaiState) : Bool := bitView bitTLIE es.tcr

/-- Every enabled output channel has been written since the last transfer tick (43_esai.md R330). -/
def EsaiState.allWritten (es : EsaiState) : Bool := es.wmask.toNat &&& es.te = es.te

/-- A flag as a bit of a word. -/
def flagAt (o : Fin 24) (b : Bool) : Word := BitVec.ofNat 24 b.toNat <<< o.val

/-- SAISR as it is read: TFS, TUE and TDE at their bits, every other bit 0 (43_esai.md R334). -/
def EsaiState.saisr (es : EsaiState) : Word :=
  flagAt bitTFS es.tfs ||| flagAt bitTUE es.tue ||| flagAt bitTDE es.tde

/-- The stored bits of HCSR as a word (10_state.md R34). -/
def ShiState.hcsrWord (sh : ShiState) : Word := sh.hcsr.setWidth 24

/-- HEN (44_shi.md shorthand). -/
def ShiState.hen (sh : ShiState) : Bool := bitView bitHEN sh.hcsrWord

/-- HTIE (44_shi.md shorthand). -/
def ShiState.htie (sh : ShiState) : Bool := bitView bitHTIE sh.hcsrWord

/-- HRIE (44_shi.md shorthand). -/
def ShiState.hrie (sh : ShiState) : Nat := packedView descHRIE sh.hcsrWord

/-- HRNE: rxq holds a word, computed when HCSR is read (44_shi.md R390). -/
def ShiState.hrne (sh : ShiState) : Bool := decide (0 < sh.rxq.items.length)

/-- HCSR as it is read (44_shi.md R390). -/
def ShiState.hcsrRead (sh : ShiState) : Word := sh.hcsrWord ||| flagAt bitHRNE sh.hrne

/-- Words pushed to rxq now are counted: the interface and its receive interrupts are enabled (44_shi.md R381, R386). -/
def ShiState.rxCounted (sh : ShiState) : Bool := sh.hen && decide (sh.hrie ≠ 0)

end Sys2Proof.Machine
end

