-- ==== Sys2Proof/Machine/Ops.lean ====
section
/-! DEFINITION. The named operations over the state: events and interrupt requests, the backing memory, the queues, and how a
transaction of E or of a host ends, holds or aborts. The engine takes no exception and returns from none (60_exceptions.md
R541, R542); its one request to the core's exception machinery is `State.inject` (R540). -/

namespace Sys2Proof.Machine

/-- The outcome of a step or an instruction. -/
abbrev Out := Host.Outcome State Fault Refusal

/-! ### Events and the core -/

/-- Appends an event to `hist` (10_state.md R57). -/
def State.event (ev : Event) (s : State) : State := { s with hist := s.hist ++ [ev] }

/-- `Log(kind, info)` (60_exceptions.md R536). -/
def State.log (d : Diag) (s : State) : State := s.event (.log d)

/-- `Inject(vec)`: an interrupt request to the core (60_exceptions.md R540). -/
def State.inject (vec : Nat) (s : State) : State := s.event (.inject vec)

/-- `Counter()`: the core's counter, a CYC_W-bit natural (60_exceptions.md R545, R547). -/
def State.counter (s : State) : Nat := s.core.counter % 2 ^ s.cfg.cycW

/-- `GetPC()`: the core's program counter as a 24-bit address (60_exceptions.md R545, 10_state.md R60). -/
def State.getPc (s : State) : Word := BitVec.ofNat 24 s.core.pc

/-- `PMemSet(addr, w)`: a write to the core's program memory (60_exceptions.md R545). -/
def State.pmemSet (addr w : Word) (s : State) : State := s.event (.pmemSet addr w)

/-- `pc <- a`: the core's program counter is set (60_exceptions.md R545). -/
def State.setPc (a : Word) (s : State) : State :=
  State.event (.setPc a) { s with core := { s.core with pc := a.toNat } }

/-! ### Backing memory -/

/-- `backing_init`: what an offset that the memory list does not name holds (10_state.md R33). -/
def initialWord (p : Params) (a : Area) (off : Nat) : Word :=
  ((match a with
    | .x => p.initX
    | .y => p.initY).lookup off).getD 0

/-- Removes the entry of an offset. -/
def cellsErase (off : Nat) (m : Memory) : Memory := m.filter fun p => decide (p.1 ≠ off)

/-- Sets the entry of an offset, keeping the offsets rising. -/
def cellsInsert (off : Nat) (v : Word) : Memory → Memory
  | [] => [(off, v)]
  | (k, w) :: r =>
    if off < k then (off, v) :: (k, w) :: r
    else if off = k then (off, v) :: r
    else (k, w) :: cellsInsert off v r

/-- The word at an offset, where an offset not listed holds `init`. -/
def Memory.get (m : Memory) (init : Word) (off : Nat) : Word :=
  (m.lookup off).getD init

/-- The memory with a word stored at an offset, in canonical form. -/
def Memory.put (m : Memory) (init : Word) (off : Nat) (v : Word) : Memory :=
  if v = init then cellsErase off m else cellsInsert off v m

/-- The canonical form of an area's memory: rising offsets, all below the bound, and no entry equal to what an offset not
listed holds. -/
def Memory.wf (m : Memory) (bound : Nat) (init : Nat → Word) : Bool :=
  decide (m.Pairwise (fun p q => p.1 < q.1)) && m.all (fun p => decide (p.1 < bound) && decide (p.2 ≠ init p.1))

/-- An area's memory. -/
def State.areaMem (a : Area) (s : State) : Memory :=
  match a with
  | .x => s.bus.memX
  | .y => s.bus.memY

/-- The state with an area's memory replaced. -/
def State.setAreaMem (a : Area) (m : Memory) (s : State) : State :=
  match a with
  | .x => { s with bus := { s.bus with memX := m } }
  | .y => { s with bus := { s.bus with memY := m } }

/-- The offset is in range for the backing memory (20_memory.md R106). -/
def State.inRange (off : Word) (s : State) : Bool := decide (off.toNat < s.cfg.backingWords)

/-- The backing word `bus.mem[a][off]`. -/
def State.backing (a : Area) (off : Word) (s : State) : Word :=
  (s.areaMem a).get (initialWord s.cfg a off.toNat) off.toNat

/-- The state with the backing word `bus.mem[a][off]` set. -/
def State.setBacking (a : Area) (off v : Word) (s : State) : State :=
  s.setAreaMem a ((s.areaMem a).put (initialWord s.cfg a off.toNat) off.toNat v)

/-- `MemRead(a, off, 1)`: the state after it (20_memory.md R104). -/
def State.memReadState (a : Area) (off : Word) (s : State) : State :=
  if s.inRange off then s.log (.memRead a off (s.backing a off)) else s.log (.outOfBounds a off)

/-- `MemRead(a, off, 1)`: the word it returns (20_memory.md R104). -/
def State.memReadWord (a : Area) (off : Word) (s : State) : Word :=
  if s.inRange off then s.backing a off else 0

/-- `MemWrite(a, off, 1, v)` (20_memory.md R105). -/
def State.memWrite (a : Area) (off v : Word) (s : State) : State :=
  if s.inRange off then (s.setBacking a off v).log (.memWrite a off v) else s.log (.outOfBounds a off)

/-! ### Queues -/

/-- What a queue primitive does now: it completes, it must wait, or it fails because the queue is shut. -/
inductive QOut (α : Type) where
  | ok (a : α)
  | block
  | shut

/-- `Push(q, v)` (42_queue.md R271). -/
def Queue.push (q : Queue) (v : Word) : QOut Queue :=
  if q.shut then .shut
  else if q.items.length < Config.qcap then .ok { q with items := q.items ++ [v] }
  else .block

/-- `Pop(q)` (42_queue.md R272). -/
def Queue.pop (q : Queue) : QOut (Word × Queue) :=
  if q.shut then .shut
  else
    match q.items with
    | [] => .block
    | w :: ws => .ok (w, { q with items := ws })

/-- `Front(q)` (42_queue.md R273). -/
def Queue.front (q : Queue) : Except Fault Word :=
  match q.items with
  | [] => .error .peekEmpty
  | w :: _ => .ok w

/-- `Shutdown(q)` (42_queue.md R274). -/
def Queue.shutdown (q : Queue) : Queue := { q with shut := true }

/-- `TryPop(q)`: none if the queue is shut, else the oldest word, if there is one, and the queue after it; it never waits
(42_queue.md R275). -/
def Queue.tryPop (q : Queue) : Option (Option Word × Queue) :=
  if q.shut then none
  else
    match q.items with
    | [] => some (none, q)
    | w :: ws => some (some w, { q with items := ws })

/-- `Count(q)` (42_queue.md R276). -/
def Queue.count (q : Queue) : Nat := q.items.length

/-- `Empty(q)` (42_queue.md R276). -/
def Queue.isEmpty (q : Queue) : Bool := decide (q.count = 0)

/-- `Full(q)` (42_queue.md R276). -/
def Queue.isFull (q : Queue) : Bool := decide (q.count = Config.qcap)

/-- A queue of the engine by its name (42_queue.md R280). -/
def State.queue (id : QId) (s : State) : Queue :=
  match id with
  | .shiRx => s.shi.rxq
  | .shiTx => s.shi.txq
  | .out c => s.esai.outq[c]
  | .inp c => s.esai.inq[c]

/-- The state with one queue replaced. -/
def State.setQueue (id : QId) (q : Queue) (s : State) : State :=
  match id with
  | .shiRx => { s with shi := { s.shi with rxq := q } }
  | .shiTx => { s with shi := { s.shi with txq := q } }
  | .out c => { s with esai := { s.esai with outq := s.esai.outq.set c q } }
  | .inp c => { s with esai := { s.esai with inq := s.esai.inq.set c q } }

/-- The state with one queue shut. -/
def State.shutQueue (id : QId) (s : State) : State := s.setQueue id (s.queue id).shutdown

/-! ### How a transaction of E goes -/

/-- Where a part of E's transaction gets to: its end with a result, a hold, an abort or a fault (00_scope.md R13). -/
inductive Res (α : Type) where
  | done (a : α) (s : State)
  | hold (p : HoldPoint) (s : State)
  | abort (s : State)
  | fault (f : Fault)

/-- The next part of the transaction runs if this one is done; a hold, an abort or a fault ends the stretch, with the effects
made so far (00_scope.md R13, 41_bus.md R240). -/
def Res.bind {α β : Type} (r : Res α) (k : α → State → Res β) : Res β :=
  match r with
  | .done a s => k a s
  | .hold p s => .hold p s
  | .abort s => .abort s
  | .fault f => .fault f

/-- The result of a part, changed. -/
def Res.map {α β : Type} (g : α → β) (r : Res α) : Res β :=
  match r with
  | .done a s => .done (g a) s
  | .hold p s => .hold p s
  | .abort s => .abort s
  | .fault f => .fault f

/-- `Push` by E to one of the engine's queues; `p` is where E holds if the queue is full (42_queue.md R271). -/
def pushAt (p : HoldPoint) (id : QId) (v : Word) (s : State) : Res Unit :=
  match (s.queue id).push v with
  | .ok q => .done () (s.setQueue id q)
  | .block => .hold p s
  | .shut => .abort s

/-- `Pop` by E from one of the engine's queues; `p` is where E holds if the queue is empty (42_queue.md R272). -/
def popAt (p : HoldPoint) (id : QId) (s : State) : Res Word :=
  match (s.queue id).pop with
  | .ok (w, q) => .done w (s.setQueue id q)
  | .block => .hold p s
  | .shut => .abort s

/-- An agent gets its transaction's ending (00_scope.md R13). -/
def State.reply (ag : Agent) (o : Ending) (s : State) : State :=
  { s with replies := s.replies ++ [⟨ag, o⟩] }

/-- E's transaction is done. -/
def State.doneE (r : Result) (s : State) : State := s.reply .e (.done r)

/-- E is held (00_scope.md R13). -/
def State.holdE (h : Held) (s : State) : State := { s with e := { s.e with held := some h } }

/-- E is held no more. -/
def State.freeE (s : State) : State := { s with e := { s.e with held := none } }

/-- E's transaction ends in `Abort(QueueShutdown)` and E is Aborted (41_bus.md R240, 10_state.md R55). -/
def State.abortE (s : State) : State :=
  State.reply .e .abort { s with e := { s.e with status := .aborted } }

/-- The outcome of a stretch of E's transaction: `k` goes on when the part is done, `fr` says what is left when it holds. -/
def Res.outcome {α : Type} (fr : Frame) (k : α → State → Out) (r : Res α) : Out :=
  match r with
  | .done a s => k a s
  | .hold p s => .next (s.holdE (.queue p fr))
  | .abort s => .next s.abortE
  | .fault f => .fault f

/-- The outcome of a transaction of E that is no more than this part. -/
def Res.endE (r : Res Result) : Out :=
  r.outcome .bare (fun x s => .next (s.doneE x))

/-! ### How a transaction of a host goes -/

/-- The RX write contract after its push: the word is counted if the interface and its receive interrupts are enabled now
(44_shi.md R386). -/
def State.countRx (s : State) : State :=
  if s.shi.rxCounted then { s with shi := { s.shi with pendRx := s.shi.pendRx + 1 } } else s

/-- What follows a host's completed push, in the same atomic step: the RX write contract for `shi.rxq`, nothing for an ESAI
input queue (47_host_streams.md R501, R503). -/
def State.afterHostPush (id : QId) (s : State) : State :=
  match id with
  | .shiRx => s.countRx
  | _ => s

/-- A host's queue operation now (47_host_streams.md R501-R504). -/
def hostTry (op : HostOp) (s : State) : QOut (Result × State) :=
  match op with
  | .push id v =>
    match (s.queue id).push v with
    | .ok q => .ok (.unit, (s.setQueue id q).afterHostPush id)
    | .block => .block
    | .shut => .shut
  | .pop id =>
    match (s.queue id).pop with
    | .ok (w, q) => .ok (.word w, s.setQueue id q)
    | .block => .block
    | .shut => .shut

/-- The host agent is held in no transaction. -/
def State.hostFree (ag : Agent) (s : State) : Bool := (s.hosts.lookup ag).isNone

/-- Drops the hold of a host agent. -/
def State.freeHost (ag : Agent) (s : State) : State :=
  { s with hosts := s.hosts.filter (fun p => decide (p.1 ≠ ag)) }

/-- A host agent is held in a transaction. -/
def State.holdHost (ag : Agent) (op : HostOp) (s : State) : State :=
  { s with hosts := s.hosts ++ [(ag, op)] }

/-- A host transaction by the agent `ag`: it is done, it holds, or it meets a shut queue and ends in end-of-stream
(47_host_streams.md R500, R506). -/
def hostRun (ag : Agent) (op : HostOp) (s : State) : Out :=
  match hostTry op s with
  | .ok (r, s') => .next (s'.reply ag (.done r))
  | .block => .next (s.holdHost ag op)
  | .shut => .next (s.reply ag (.done .endOfStream))

/-! ### Outcome codes -/

/-- The reason for which E is held (00_scope.md R13, 60_exceptions.md R535). -/
inductive HoldReason where
  | queueFull
  | queueEmpty
  | debuggerStopped
  deriving DecidableEq, Repr

/-- The reason of a hold of E (70_reset_and_hazards.md R585). -/
def heldReason : Held → HoldReason
  | .debugger => .debuggerStopped
  | .queue (.hrxWrite _) _ => .queueFull
  | .queue (.htxWrite _) _ => .queueFull
  | .queue (.esaiOut _ _) _ => .queueFull
  | .queue .hrxRead _ => .queueEmpty
  | .queue .bootCount _ => .queueEmpty
  | .queue (.bootAddr _) _ => .queueEmpty
  | .queue (.bootWord _ _ _) _ => .queueEmpty

/-- The reason of a hold of a host. -/
def hostHeldReason : HostOp → HoldReason
  | .push _ _ => .queueFull
  | .pop _ => .queueEmpty

/-- The codes of the holds (60_exceptions.md R535). -/
def holdCode : HoldReason → Nat
  | .queueFull => 1
  | .queueEmpty => 2
  | .debuggerStopped => 3

/-- The code of an ending; `Done` has none (60_exceptions.md R535). -/
def endingCode : Ending → Option Nat
  | .done _ => none
  | .abort => some 4

/-- The codes of the faults (60_exceptions.md R535). -/
def faultCode : Fault → Nat
  | .peekEmpty => 5
  | .unboundCore => 6
  | .bitFieldTestRange => 7

/-- The code of `Refused(Encoding)`; the other refusals are the model's own and have none (60_exceptions.md R535). -/
def refusalCode : Refusal → Option Nat
  | .encoding _ => some 8
  | _ => none

end Sys2Proof.Machine
end

