-- ==== Sys2Proof/Machine/Ancillary.lean ====
section
/-! DEFINITION. The ancillary peripherals of 46_ancillary.md: the CGM, the CHID and the CCM, their register handlers and their
lifecycle operations. -/

namespace Sys2Proof.Machine

/-- `READ PCTL` (46_ancillary.md R473). -/
def readPctlReg (s : State) : Res Word := .done 0 (s.log (.writeOnlyRead .pctl))

/-- `WRITE PCTL`: nothing is stored (46_ancillary.md R470). -/
def writePctlReg (s : State) : Res Unit := .done () s

/-- The CHIDR word `(0x720 | (CORE_INDEX << 16)) mod 2^24` (46_ancillary.md R471). -/
def chidrWord (coreIndex : Nat) : Word := BitVec.ofNat 24 (0x720 ||| coreIndex <<< 16)

/-- `READ CHIDR` (46_ancillary.md R471). -/
def readChidrReg (s : State) : Res Word := .done (chidrWord s.cfg.coreIndex) s

/-- `WRITE CHIDR` (46_ancillary.md R472). -/
def writeChidrReg (s : State) : Res Unit := .done () (s.log (.readOnlyWrite .chidr))

/-- `WRITE EMBC` (46_ancillary.md R474). -/
def writeEmbcReg (v : Word) (s : State) : Res Unit := .done () { s with embc := v }

/-- `READ EMBC` (46_ancillary.md R475). -/
def readEmbcReg (s : State) : Res Word := .done s.embc s

/-- `READ ODBC` (46_ancillary.md R476). -/
def readOdbcReg (s : State) : Res Word := .done 0 s

/-- `WRITE ODBC` (46_ancillary.md R477). -/
def writeOdbcReg (s : State) : Res Unit := .done () s

/-- CGM `exec()`, `reset()` and `terminate()` (46_ancillary.md R478). -/
def State.cgmNoop (s : State) : State := s

/-- CCM `exec()`, `reset()` and `terminate()` (46_ancillary.md R478). -/
def State.ccmNoop (s : State) : State := s

/-- CHID `exec()`, `reset()` and `terminate()` (46_ancillary.md R478). -/
def State.chidNoop (s : State) : State := s

end Sys2Proof.Machine
end

