-- ==== Sys2Proof/Machine/Esai.lean ====
section
/-! DEFINITION. The ESAI of 43_esai.md: its tick and its register handlers. -/

namespace Sys2Proof.Machine

/-- The six output channels, ascending (43_esai.md R310 step 4a). -/
def outChannels : List (Fin 6) := [0, 1, 2, 3, 4, 5]

/-- The four input channels, ascending (43_esai.md R310 step 4b). -/
def inChannels : List (Fin 4) := [0, 1, 2, 3]

/-- The output channels after one, ascending. -/
def outChannelsAfter (c : Fin 6) : List (Fin 6) := outChannels.filter (fun d => decide (c < d))

/-- The elapsed count `(now - snap) mod 2^CYC_W` (43_esai.md R310 step 2, R312). -/
def elapsed (w now snap : Nat) : Nat := (((now : Int) - (snap : Int)) % ((2 : Int) ^ w)).toNat

/-- Step 2 of the tick: the accumulator takes the elapsed cycles and the snapshot the counter (43_esai.md R310). -/
def State.esaiAccumulate (s : State) : State :=
  { s with esai := { s.esai with
      acc := s.esai.acc + elapsed s.cfg.cycW s.counter s.esai.snap
      snap := s.counter } }

/-- The push of step 4a to one enabled output channel (43_esai.md R310, R314). -/
def esaiPush (c : Fin 6) (rest : List Periph) (s : State) : Res Unit :=
  pushAt (.esaiOut c rest) (.out c) s.esai.txw[c] s

/-- Step 4a over the given channels, in their order (43_esai.md R310, R314). -/
def esaiOutputs (rest : List Periph) : List (Fin 6) → State → Res Unit
  | [], s => .done () s
  | c :: cs, s =>
    if s.esai.teTest c then (esaiPush c rest s).bind fun _ s => esaiOutputs rest cs s
    else esaiOutputs rest cs s

/-- The state with a receive buffer word replaced (10_state.md R44). -/
def State.setRxw (c : Fin 4) (w : Word) (s : State) : State :=
  { s with esai := { s.esai with rxw := s.esai.rxw.set c w } }

/-- The capture of step 4b from one enabled input channel (43_esai.md R310, R315). -/
def esaiCapture (c : Fin 4) (s : State) : Res Unit :=
  match (s.queue (.inp c)).tryPop with
  | some (r, q) => .done () ((s.setQueue (.inp c) q).setRxw c (r.getD 0))
  | none => .abort s

/-- Step 4b over the given channels, in their order (43_esai.md R310, R315). -/
def esaiInputs : List (Fin 4) → State → Res Unit
  | [], s => .done () s
  | c :: cs, s =>
    if s.esai.reTest c then (esaiCapture c s).bind fun _ s => esaiInputs cs s
    else esaiInputs cs s

/-- Step 5: the frame sync toggles (43_esai.md R310). -/
def State.esaiToggle (s : State) : State := { s with esai := { s.esai with tfs := !s.esai.tfs } }

/-- Step 6: the interrupts of the tick, after the toggle (43_esai.md R310, R316). -/
def State.esaiInterrupts (s : State) : State :=
  let s1 := if s.esai.tie then s.inject s.cfg.vecEsaiTd else s
  if s.esai.tfs = true ∧ s.esai.tlie = true then s1.inject s.cfg.vecEsaiTls else s1

/-- Step 7: the status bits are set and the period's records are cleared (43_esai.md R310, R319). -/
def State.esaiSetStatus (s : State) : State :=
  { s with esai := { s.esai with tue := true, tde := true, wmask := 0, stRead := false } }

/-- Steps 5 to 7 (43_esai.md R310). -/
def State.esaiTickEnd (s : State) : State := s.esaiToggle.esaiInterrupts.esaiSetStatus

/-- Steps 4b to 7 (43_esai.md R310). -/
def esaiTail (s : State) : Res Unit :=
  (esaiInputs inChannels s).bind fun _ s => .done () s.esaiTickEnd

/-- The transfer tick, from the subtraction on (43_esai.md R310, R313). -/
def esaiTransfer (rest : List Periph) (s : State) : Res Unit :=
  (esaiOutputs rest outChannels { s with esai := { s.esai with acc := s.esai.acc - s.cfg.cps } }).bind
    fun _ s => esaiTail s

/-- ESAI `exec()` (43_esai.md R310, R311). -/
def esaiExec (rest : List Periph) (s : State) : Res Unit :=
  if s.esai.te = 0 then .done () s
  else if s.esaiAccumulate.esai.acc < s.cfg.cps then .done () s.esaiAccumulate
  else esaiTransfer rest s.esaiAccumulate

/-- The rest of a transfer tick from its push to output channel `c` on (43_esai.md R314). -/
def esaiFrom (c : Fin 6) (rest : List Periph) (s : State) : Res Unit :=
  (esaiPush c rest s).bind fun _ s => (esaiOutputs rest (outChannelsAfter c) s).bind fun _ s => esaiTail s

/-- ESAI `terminate()` (41_bus.md R238). -/
def State.esaiTerminate (s : State) : State :=
  inChannels.foldl (fun s c => s.shutQueue (.inp c)) (outChannels.foldl (fun s c => s.shutQueue (.out c)) s)

/-- The word of an accepted TX write is kept and its channel is marked written (43_esai.md R330). -/
def State.txAccept (c : Fin 6) (v : Word) (s : State) : State :=
  { s with esai := { s.esai with
      txw := s.esai.txw.set c v
      wmask := s.esai.wmask ||| (1#6 <<< c.val) } }

/-- The completion test of a TX write and what it clears (43_esai.md R330). -/
def State.txComplete (s : State) : State :=
  if s.esai.allWritten then
    { s with esai := { s.esai with
        tue := if s.esai.stRead then false else s.esai.tue
        tde := false } }
  else s

/-- `WRITE TXc` (43_esai.md R330). -/
def writeTxReg (c : Fin 6) (v : Word) (s : State) : Res Unit :=
  if s.esai.teTest c then .done () (s.txAccept c v).txComplete
  else .done () (s.log (.disabledChannel (.tx c)))

/-- `READ TXc` (43_esai.md R331). -/
def readTxReg (c : Fin 6) (s : State) : Res Word := .done 0 (s.log (.writeOnlyRead (.tx c)))

/-- The word `READ RXc` returns (43_esai.md R332). -/
def State.rxWord (c : Fin 4) (s : State) : Word := if s.esai.reTest c then s.esai.rxw[c] else 0

/-- The state after `READ RXc` (43_esai.md R332). -/
def State.rxState (c : Fin 4) (s : State) : State :=
  if s.esai.reTest c then s else s.log (.disabledChannel (.rx c))

/-- `READ RXc` (43_esai.md R332). -/
def readRxReg (c : Fin 4) (s : State) : Res Word := .done (s.rxWord c) (s.rxState c)

/-- `WRITE RXc` (43_esai.md R333). -/
def writeRxReg (c : Fin 4) (s : State) : Res Unit := .done () (s.log (.readOnlyWrite (.rx c)))

/-- `READ SAISR`, of any kind (43_esai.md R334). -/
def readSaisrReg (s : State) : Res Word :=
  .done s.esai.saisr { s with esai := { s.esai with stRead := true } }

/-- `WRITE SAISR` (43_esai.md R335). -/
def writeSaisrReg (s : State) : Res Unit := .done () (s.log (.readOnlyWrite .saisr))

/-- `WRITE TCR` (43_esai.md R336). -/
def writeTcrReg (v : Word) (s : State) : Res Unit := .done () { s with esai := { s.esai with tcr := v } }

/-- `READ TCR` (43_esai.md R337). -/
def readTcrReg (s : State) : Res Word := .done s.esai.tcr s

/-- `WRITE RCR` (43_esai.md R338). -/
def writeRcrReg (v : Word) (s : State) : Res Unit := .done () { s with esai := { s.esai with rcr := v } }

/-- `READ RCR` (43_esai.md R339). -/
def readRcrReg (s : State) : Res Word := .done s.esai.rcr s

/-- `WRITE SAICR` (43_esai.md R340). -/
def writeSaicrReg (v : Word) (s : State) : Res Unit := .done () { s with esai := { s.esai with saicr := v } }

/-- `READ SAICR` (43_esai.md R341). -/
def readSaicrReg (s : State) : Res Word := .done s.esai.saicr s

/-- `WRITE TCCR` (43_esai.md R342). -/
def writeTccrReg (v : Word) (s : State) : Res Unit := .done () { s with esai := { s.esai with tccr := v } }

/-- `READ TCCR` (43_esai.md R343). -/
def readTccrReg (s : State) : Res Word := .done s.esai.tccr s

/-- `WRITE RCCR` (43_esai.md R344). -/
def writeRccrReg (v : Word) (s : State) : Res Unit := .done () { s with esai := { s.esai with rccr := v } }

/-- `READ RCCR` (43_esai.md R345). -/
def readRccrReg (s : State) : Res Word := .done s.esai.rccr s

end Sys2Proof.Machine
end

