-- ==== Sys2Proof/Machine/Shi.lean ====
section
/-! DEFINITION. The SHI of 44_shi.md: its tick and its register handlers. -/

namespace Sys2Proof.Machine

/-- The RX branch of the SHI tick delivers: one count is consumed, and the mode says what is raised (44_shi.md R380, R382). -/
def State.shiDeliverRx (s : State) : State :=
  let s1 := { s with shi := { s.shi with pendRx := s.shi.pendRx - 1 } }
  if s.shi.hrie = 1 then (if s.shi.rxq.isEmpty then s1 else s1.inject s.cfg.vecShiRne)
  else if s.shi.hrie = 3 then (if s.shi.rxq.isFull then s1.inject s.cfg.vecShiRff else s1)
  else s1

/-- The TX branch of the SHI tick delivers (44_shi.md R380). -/
def State.shiDeliverTx (s : State) : State :=
  State.inject s.cfg.vecShiTd { s with shi := { s.shi with pendTx := s.shi.pendTx - 1 } }

/-- SHI `exec()` (44_shi.md R380, R381). -/
def State.shiExec (s : State) : State :=
  if !s.shi.hen then s
  else if 0 < s.shi.pendRx ∧ s.shi.hrie ≠ 0 then s.shiDeliverRx
  else if s.shi.htie = true ∧ 0 < s.shi.pendTx then s.shiDeliverTx
  else s

/-- SHI `terminate()` (41_bus.md R238). -/
def State.shiTerminate (s : State) : State := (s.shutQueue .shiRx).shutQueue .shiTx

/-- `READ HRX`, kind Ordinary (44_shi.md R384). -/
def readHrxOrdinary (s : State) : Res Word := popAt .hrxRead .shiRx s

/-- `READ HRX`, kind BitTest (44_shi.md R385). -/
def readHrxBitTest (s : State) : Res Word :=
  match (s.queue .shiRx).front with
  | .ok w => .done w s
  | .error f => .fault f

/-- `READ HRX`: the kind decides whether the word is consumed (44_shi.md R384, R385). -/
def readHrxReg (k : Kind) (s : State) : Res Word :=
  match k with
  | .ordinary => readHrxOrdinary s
  | .bitTest => readHrxBitTest s

/-- The RX write contract, as E reaches it by a bus write (44_shi.md R386). -/
def writeHrxReg (v : Word) (s : State) : Res Unit :=
  (pushAt (.hrxWrite v) .shiRx v s).bind fun _ s => .done () s.countRx

/-- What follows the completed push of an HTX write (44_shi.md R387). -/
def State.countTx (s : State) : State := { s with shi := { s.shi with pendTx := s.shi.pendTx + 1 } }

/-- `WRITE HTX` (44_shi.md R387). -/
def writeHtxReg (v : Word) (s : State) : Res Unit :=
  (pushAt (.htxWrite v) .shiTx v s).bind fun _ s => .done () s.countTx

/-- `READ HTX` (44_shi.md R388). -/
def readHtxReg (s : State) : Res Word := .done 0 (s.log (.writeOnlyRead .htx))

/-- `WRITE HCSR`: bits 13:0 are stored (44_shi.md R389). -/
def writeHcsrReg (v : Word) (s : State) : Res Unit :=
  .done () { s with shi := { s.shi with hcsr := v.extractLsb' 0 14 } }

/-- `READ HCSR` (44_shi.md R390). -/
def readHcsrReg (s : State) : Res Word := .done s.shi.hcsrRead s

/-- `WRITE HCKR` (44_shi.md R391). -/
def writeHckrReg (v : Word) (s : State) : Res Unit := .done () { s with shi := { s.shi with hckr := v } }

/-- `READ HCKR` (44_shi.md R392). -/
def readHckrReg (s : State) : Res Word := .done s.shi.hckr s

/-- `WRITE HSAR` (44_shi.md R393). -/
def writeHsarReg (v : Word) (s : State) : Res Unit := .done () { s with shi := { s.shi with hsar := v } }

/-- `READ HSAR` (44_shi.md R394). -/
def readHsarReg (s : State) : Res Word := .done s.shi.hsar s

end Sys2Proof.Machine
end

