-- ==== Sys2Proof/Machine/Bus.lean ====
section
/-! DEFINITION. The bus of 41_bus.md: registration, the dispatch of reads and writes, and the fan-outs of EXEC, RESET and
TERMINATE over the peripherals. -/

namespace Sys2Proof.Machine

/-! ### Registration -/

/-- `bus.list`: the peripherals in registration order (41_bus.md R230). -/
def periphList (o : PeriphOrder) : List Periph :=
  let l1 := [Periph.cgm, .shi, .esai, .ccm, .chid]
  let l2 := l1.eraseIdx o.first.val
  let l3 := l2.eraseIdx o.second.val
  let l4 := l3.eraseIdx o.third.val
  let l5 := l4.eraseIdx o.fourth.val
  [l1.getD o.first.val .cgm, l2.getD o.second.val .cgm, l3.getD o.third.val .cgm, l4.getD o.fourth.val .cgm,
    l5.getD 0 .cgm]

/-- The peripheral that owns a register (10_state.md R62). -/
def regOwner : Reg → Periph
  | .pctl => .cgm
  | .hckr | .hcsr | .hsar | .htx | .hrx => .shi
  | .tx _ | .rx _ | .saisr | .saicr | .tcr | .tccr | .rcr | .rccr => .esai
  | .chidr => .chid
  | .odbc | .embc => .ccm

/-- The pairs a peripheral reports at registration: those of the registers it owns (41_bus.md R230, 10_state.md R62). -/
def registersOf (p : Periph) : List ((Area × Word) × Reg) :=
  regTable.filter fun e => decide (regOwner e.2 = p)

/-- The order in which the map lists its pairs: X before Y, then by offset. -/
def pairBefore (p q : Area × Word) : Bool :=
  match p.1, q.1 with
  | .x, .y => true
  | .y, .x => false
  | _, _ => decide (p.2.toNat < q.2.toNat)

/-- The map with a pair bound to a register; an entry at the same pair is replaced: the later registration wins
(41_bus.md R230, R231). -/
def mapInsert (e : (Area × Word) × Reg) : List ((Area × Word) × Reg) → List ((Area × Word) × Reg)
  | [] => [e]
  | f :: m =>
    if e.1 = f.1 then e :: m
    else if pairBefore e.1 f.1 then e :: f :: m
    else f :: mapInsert e m

/-- Registers one pair: the new map, and a hazard event if the pair was taken (41_bus.md R231, 60_exceptions.md R532). -/
def registerPair (st : List ((Area × Word) × Reg) × List Event) (e : (Area × Word) × Reg) :
    List ((Area × Word) × Reg) × List Event :=
  (mapInsert e st.1,
    if (st.1.lookup e.1).isSome then st.2 ++ [.log (.configurationHazard e.1.1 e.1.2)] else st.2)

/-- `add(p)` for every peripheral in order: the map it leaves and the hazards it logs (41_bus.md R230). -/
def construction (order : List Periph) : List ((Area × Word) × Reg) × List Event :=
  order.foldl (fun st p => (registersOf p).foldl registerPair st) ([], [])

/-! ### Dispatch of reads and writes -/

/-- `ReadHandler`: a register's read rule (41_bus.md R232; 10_state.md R62). -/
def readReg (r : Reg) (k : Kind) (s : State) : Res Word :=
  match r with
  | .pctl => readPctlReg s
  | .hckr => readHckrReg s
  | .hcsr => readHcsrReg s
  | .hsar => readHsarReg s
  | .htx => readHtxReg s
  | .hrx => readHrxReg k s
  | .tx c => readTxReg c s
  | .rx c => readRxReg c s
  | .saisr => readSaisrReg s
  | .saicr => readSaicrReg s
  | .tcr => readTcrReg s
  | .tccr => readTccrReg s
  | .rcr => readRcrReg s
  | .rccr => readRccrReg s
  | .chidr => readChidrReg s
  | .odbc => readOdbcReg s
  | .embc => readEmbcReg s

/-- `WriteHandler`: a register's write rule (41_bus.md R234; 10_state.md R62). -/
def writeReg (r : Reg) (v : Word) (s : State) : Res Unit :=
  match r with
  | .pctl => writePctlReg s
  | .hckr => writeHckrReg v s
  | .hcsr => writeHcsrReg v s
  | .hsar => writeHsarReg v s
  | .htx => writeHtxReg v s
  | .hrx => writeHrxReg v s
  | .tx c => writeTxReg c v s
  | .rx c => writeRxReg c s
  | .saisr => writeSaisrReg s
  | .saicr => writeSaicrReg v s
  | .tcr => writeTcrReg v s
  | .tccr => writeTccrReg v s
  | .rcr => writeRcrReg v s
  | .rccr => writeRccrReg v s
  | .chidr => writeChidrReg s
  | .odbc => writeOdbcReg s
  | .embc => writeEmbcReg v s

/-- `BUS_READ(a, off, k)` (41_bus.md R232, R233). -/
def busRead (a : Area) (off : Word) (k : Kind) (s : State) : Res Word :=
  match s.bus.map.lookup (a, off) with
  | some r => readReg r k s
  | none => .done (s.memReadWord a off) (s.memReadState a off)

/-- `BUS_WRITE(a, off, v)`; the data is truncated before dispatch (41_bus.md R234, R235). -/
def busWrite (a : Area) (off : Word) (v : Nat) (s : State) : Res Unit :=
  match s.bus.map.lookup (a, off) with
  | some r => writeReg r (trunc24 v) s
  | none => .done () (s.memWrite a off (trunc24 v))

/-- A bus transaction of the core, with its result (60_exceptions.md R546). -/
def busTxn (t : BusTxn) (s : State) : Res Result :=
  match t with
  | .read a off k => (busRead a off k s).map .word
  | .write a off v => (busWrite a off v s).map fun _ => .unit

/-- A `BUS_READ` transaction of E. -/
def execBusRead (a : Area) (off : Word) (k : Kind) (s : State) : Out :=
  ((busRead a off k s).map .word).endE

/-- A `BUS_WRITE` transaction of E. -/
def execBusWrite (a : Area) (off : Word) (v : Nat) (s : State) : Out :=
  ((busWrite a off v s).map fun _ => Result.unit).endE

/-! ### Fan-outs -/

/-- A peripheral's `exec()`; `rest` are the peripherals that come after it (41_bus.md R236). -/
def periphExec (p : Periph) (rest : List Periph) (s : State) : Res Unit :=
  match p with
  | .cgm => .done () s.cgmNoop
  | .shi => .done () s.shiExec
  | .esai => esaiExec rest s
  | .ccm => .done () s.ccmNoop
  | .chid => .done () s.chidNoop

/-- `exec()` of each of the peripherals, in order; a hold or an abort ends it (41_bus.md R236, R240). -/
def fanOut : List Periph → State → Res Unit
  | [], s => .done () s
  | p :: ps, s => (periphExec p ps s).bind fun _ s => fanOut ps s

/-- EXEC's fan-out over `bus.list` (41_bus.md R236). -/
def execAll (s : State) : Res Unit := fanOut (periphList s.cfg.order) s

/-- A peripheral's `reset()`: a no-op for each of the five (41_bus.md R237, 46_ancillary.md R478). -/
def periphReset (p : Periph) (s : State) : State :=
  match p with
  | .cgm => s.cgmNoop
  | .shi => s
  | .esai => s
  | .ccm => s.ccmNoop
  | .chid => s.chidNoop

/-- A peripheral's `terminate()` (41_bus.md R238). -/
def periphTerminate (p : Periph) (s : State) : State :=
  match p with
  | .cgm => s.cgmNoop
  | .shi => s.shiTerminate
  | .esai => s.esaiTerminate
  | .ccm => s.ccmNoop
  | .chid => s.chidNoop

/-- RESET's effect: the engine is bound and each peripheral's `reset()` runs (41_bus.md R237). -/
def State.resetAll (s : State) : State :=
  (periphList s.cfg.order).foldl (fun s p => periphReset p s) { s with bus := { s.bus with bound := true } }

/-- TERMINATE's effect: each peripheral's `terminate()` runs (41_bus.md R238). -/
def State.terminateAll (s : State) : State :=
  (periphList s.cfg.order).foldl (fun s p => periphTerminate p s) s

end Sys2Proof.Machine
end

