-- ==== Sys2Proof/Machine/Boot.lean ====
section
/-! DEFINITION. The boot pattern of 47_host_streams.md R507: HRX ordinary reads with core writes between them. -/

namespace Sys2Proof.Machine

/-- The program words: `left` of them, the next one for address `next`; then `pc <- start` (47_host_streams.md R507). -/
def bootWords (start : Word) : Nat → Word → State → Res Result
  | 0, _, s => .done .unit (s.setPc start)
  | left + 1, next, s =>
    (popAt (.bootWord start next left) .shiRx s).bind fun w s =>
      bootWords start left (next + 1) (s.pmemSet next w)

/-- BOOT from the pop of the address on (47_host_streams.md R507). -/
def bootFromAddr (n : Word) (s : State) : Res Result :=
  (popAt (.bootAddr n) .shiRx s).bind fun a s => bootWords a n.toNat a s

/-- BOOT from the pop of the count on (47_host_streams.md R507). -/
def bootFromCount (s : State) : Res Result :=
  (popAt .bootCount .shiRx s).bind fun n s => bootFromAddr n s

end Sys2Proof.Machine
end

