-- ==== Sys2Proof/Machine/Debugger.lean ====
section
/-! DEFINITION. The debugger of 45_debugger.md: breakpoints, the run state, and DSTEP, which wraps one instruction of the
core. -/

namespace Sys2Proof.Machine

/-- Adds an address to a set held as a strictly rising list. -/
def bpInsert (a : Word) : List Word → List Word
  | [] => [a]
  | b :: r =>
    if a.toNat < b.toNat then a :: b :: r
    else if a = b then b :: r
    else b :: bpInsert a r

/-- Takes an address out of a set held as a strictly rising list. -/
def bpErase (a : Word) (l : List Word) : List Word := l.filter fun b => decide (b ≠ a)

/-- The breakpoint set is in its canonical form: strictly rising. -/
def bpsWf (l : List Word) : Bool := decide (l.Pairwise (fun a b => a.toNat < b.toNat))

/-- The state with `dbg.mode` set. -/
def State.setMode (m : DbgMode) (s : State) : State := { s with dbg := { s.dbg with mode := m } }

/-- The state with `dbg.bps` set. -/
def State.setBps (l : List Word) (s : State) : State := { s with dbg := { s.dbg with bps := l } }

/-- The mode `DBG_CONTINUE n` sets (45_debugger.md R433). -/
def contMode (n : Nat) : DbgMode := if n = 0 then .running none else .running (some n)

/-- The mode after an instruction has been executed (45_debugger.md R434). -/
def modeAfter : DbgMode → DbgMode
  | .running (some k) => if k = 1 then .stopped else .running (some (k - 1))
  | m => m

/-- The core has executed its instruction's bus transactions: its counter and program counter are what the instruction leaves
(60_exceptions.md R545, R546; log 5). -/
def State.coreRetire (s : State) : State :=
  { s with core := { s.core with counter := s.core.next.counter, pc := s.core.next.pc } }

/-- The end of a DSTEP whose instruction is executed: the EXEC is done, then the counter update and the DSTEP
(45_debugger.md R434). -/
def State.dstepEnd (s : State) : State :=
  State.doneE .unit (State.setMode (modeAfter s.dbg.mode) (s.doneE .unit))

/-- The outcome of a DSTEP whose instruction's EXEC gets to `r` (45_debugger.md R434). -/
def coreExecOutcome (r : Res Unit) : Out :=
  r.outcome .coreExec (fun _ s => .next s.dstepEnd)

/-- The core's instruction from the given bus transactions on: these, then one EXEC (45_debugger.md R434, 60_exceptions.md
R546). -/
def coreTxns : List BusTxn → State → Out
  | [], s => coreExecOutcome (execAll s.coreRetire)
  | t :: ts, s => (busTxn t s).outcome (.coreTxns ts) (fun x s => coreTxns ts (s.doneE x))

/-- DSTEP from its wait for the debugger on (45_debugger.md R434). -/
def dstepFromWait (s : State) : Out :=
  match s.dbg.mode with
  | .stopped => .next (s.holdE .debugger)
  | .running _ =>
    if s.getPc ∈ s.dbg.bps then .next ((s.setMode .stopped).doneE .unit)
    else coreTxns s.core.next.txns s

end Sys2Proof.Machine
end

