-- ==== Sys2Proof/Machine/Resume.lean ====
section
/-! DEFINITION. How a held agent goes on (00_scope.md R13: a held transaction is resumed, not restarted), and the schedule:
which agents may issue what, and which have a step. -/

namespace Sys2Proof.Machine

/-- The part of E's transaction that holds, from its hold point on (00_scope.md R13). -/
def runPoint (p : HoldPoint) (s : State) : Res Result :=
  match p with
  | .hrxRead => (readHrxOrdinary s).map .word
  | .hrxWrite v => (writeHrxReg v s).map fun _ => .unit
  | .htxWrite v => (writeHtxReg v s).map fun _ => .unit
  | .esaiOut c rest => ((esaiFrom c rest s).bind fun _ s => fanOut rest s).map fun _ => .unit
  | .bootCount => bootFromCount s
  | .bootAddr n => bootFromAddr n s
  | .bootWord start next left => bootWords start (left + 1) next s

/-- What comes after that part in E's transaction. -/
def frameOutcome (fr : Frame) (r : Res Result) : Out :=
  match fr with
  | .bare => r.endE
  | .coreTxns rest => r.outcome (.coreTxns rest) (fun x s => coreTxns rest (s.doneE x))
  | .coreExec => coreExecOutcome (r.map fun _ => ())

/-- E tries to go on from where it is held. -/
def runHeld (h : Held) (s : State) : Out :=
  match h with
  | .debugger => dstepFromWait s
  | .queue p fr => frameOutcome fr (runPoint p s)

/-- An agent tries to go on with the transaction it is held in; an agent that is held in none has no step, and neither has an
Aborted E (42_queue.md R277, 10_state.md R55). -/
def resume (ag : Agent) (s : State) : Out :=
  match ag with
  | .e =>
    match s.e.status, s.e.held with
    | .live, some h => runHeld h s.freeE
    | _, _ => .next s
  | ag =>
    match s.hosts.lookup ag with
    | some op => hostRun ag op (s.freeHost ag)
    | none => .next s

/-- The agent kinds that issue an operation (30_encoding.md R142, 60_exceptions.md R544). -/
def agentMayIssue (ag : Agent) (op : BitVec 4) : Bool :=
  match ag with
  | .e => op = 0x0#4 || op = 0x1#4 || op = 0x2#4 || op = 0x3#4 || op = 0x4#4 || op = 0xA#4 || op = 0xB#4
  | .h _ => op = 0x5#4 || op = 0x6#4
  | .c _ => op = 0x7#4 || op = 0x8#4 || op = 0x9#4
  | .s => op = 0x4#4 || op = 0x9#4

/-- The agent that issues an operation where none is named: the first one 30_encoding.md R142 gives (R162). -/
def defaultAgent (op : BitVec 4) : Agent :=
  if op = 0x5#4 ∨ op = 0x6#4 then .h 0
  else if op = 0x7#4 ∨ op = 0x8#4 ∨ op = 0x9#4 then .c 0
  else .e

/-- The agent can issue a transaction: it is held in none, and E is Live (00_scope.md R13, 10_state.md R55). -/
def State.ready (ag : Agent) (s : State) : Bool :=
  match ag with
  | .e => decide (s.e.status = .live) && s.e.held.isNone
  | ag => s.hostFree ag

/-- The agent made ready: what `State.withFetchWord` needs for its transaction to be the next one run. -/
def State.makeReady (ag : Agent) (s : State) : State :=
  match ag with
  | .e => { s with e := { status := .live, held := none } }
  | ag => s.freeHost ag

/-- What the head of the schedule asks for. -/
inductive Fetched where
  /-- There is nothing to run: this is the next state. -/
  | idle (s : State)
  /-- The transaction cannot be run. -/
  | refuse (r : Refusal)
  /-- The instruction is run in this state. -/
  | run (i : Instr) (s : State)
  /-- The agent goes on with its held transaction in this state. -/
  | goOn (ag : Agent) (s : State)

/-- The transaction an agent issues: refused if its code is not admitted (60_exceptions.md R534, R539 (e)) or if it is not the
agent's to issue (R544), passed over if the agent has no step now (log 3), else run. -/
def fetchIssue (ag : Agent) (code : Code) (operand : Nat) (s : State) : Fetched :=
  match decode code operand with
  | .error r => .refuse (.encoding r)
  | .ok i =>
    if agentMayIssue ag (fieldsOf code).op then
      if s.ready ag then .run i { s with issuer := ag } else .idle s
    else .refuse .wrongAgent

/-- Takes the head of the schedule (log 3). -/
def fetch (s : State) : Fetched :=
  match s.sched with
  | [] => .idle s
  | .issue ag code operand :: rest => fetchIssue ag code operand { s with sched := rest }
  | .resume ag :: rest => .goOn ag { s with sched := rest }
  | .core v :: rest => .idle { s with sched := rest, core := v }

end Sys2Proof.Machine
end

