-- ==== Sys2Proof/Machine/BusReads.lean ====
section
/-! DEFINITION. The meanings of the `BUS_READ` transactions (41_bus.md R232), one for each row of the opcode table. The bus
looks the pair up in `bus.map` and the register's read rule answers. -/

namespace Sys2Proof.Machine

/-- `READ PCTL` (46_ancillary.md R473). -/
def execReadPctl (k : Kind) (s : State) : Out := execBusRead .x 0x7D#24 k s

/-- `READ HCKR` (44_shi.md R392). -/
def execReadHckr (k : Kind) (s : State) : Out := execBusRead .x 0x90#24 k s

/-- `READ HCSR` (44_shi.md R390). -/
def execReadHcsr (k : Kind) (s : State) : Out := execBusRead .x 0x91#24 k s

/-- `READ HSAR` (44_shi.md R394). -/
def execReadHsar (k : Kind) (s : State) : Out := execBusRead .x 0x92#24 k s

/-- `READ HTX` (44_shi.md R388). -/
def execReadHtx (k : Kind) (s : State) : Out := execBusRead .x 0x93#24 k s

/-- `READ TX0` (43_esai.md R331). -/
def execReadTx0 (k : Kind) (s : State) : Out := execBusRead .x 0xA0#24 k s

/-- `READ TX1` (43_esai.md R331). -/
def execReadTx1 (k : Kind) (s : State) : Out := execBusRead .x 0xA1#24 k s

/-- `READ TX2` (43_esai.md R331). -/
def execReadTx2 (k : Kind) (s : State) : Out := execBusRead .x 0xA2#24 k s

/-- `READ TX3` (43_esai.md R331). -/
def execReadTx3 (k : Kind) (s : State) : Out := execBusRead .x 0xA3#24 k s

/-- `READ TX4` (43_esai.md R331). -/
def execReadTx4 (k : Kind) (s : State) : Out := execBusRead .x 0xA4#24 k s

/-- `READ TX5` (43_esai.md R331). -/
def execReadTx5 (k : Kind) (s : State) : Out := execBusRead .x 0xA5#24 k s

/-- `READ RX0` (43_esai.md R332). -/
def execReadRx0 (k : Kind) (s : State) : Out := execBusRead .x 0xA8#24 k s

/-- `READ RX1` (43_esai.md R332). -/
def execReadRx1 (k : Kind) (s : State) : Out := execBusRead .x 0xA9#24 k s

/-- `READ RX2` (43_esai.md R332). -/
def execReadRx2 (k : Kind) (s : State) : Out := execBusRead .x 0xAA#24 k s

/-- `READ RX3` (43_esai.md R332). -/
def execReadRx3 (k : Kind) (s : State) : Out := execBusRead .x 0xAB#24 k s

/-- `READ SAISR` (43_esai.md R334). -/
def execReadSaisr (k : Kind) (s : State) : Out := execBusRead .x 0xB3#24 k s

/-- `READ SAICR` (43_esai.md R341). -/
def execReadSaicr (k : Kind) (s : State) : Out := execBusRead .x 0xB4#24 k s

/-- `READ TCR` (43_esai.md R337). -/
def execReadTcr (k : Kind) (s : State) : Out := execBusRead .x 0xB5#24 k s

/-- `READ TCCR` (43_esai.md R343). -/
def execReadTccr (k : Kind) (s : State) : Out := execBusRead .x 0xB6#24 k s

/-- `READ RCR` (43_esai.md R339). -/
def execReadRcr (k : Kind) (s : State) : Out := execBusRead .x 0xB7#24 k s

/-- `READ RCCR` (43_esai.md R345). -/
def execReadRccr (k : Kind) (s : State) : Out := execBusRead .x 0xB8#24 k s

/-- `READ CHIDR` (46_ancillary.md R471). -/
def execReadChidr (k : Kind) (s : State) : Out := execBusRead .x 0xF5#24 k s

/-- `READ ODBC` (46_ancillary.md R476). -/
def execReadOdbc (k : Kind) (s : State) : Out := execBusRead .y 0xE2#24 k s

/-- `READ EMBC` (46_ancillary.md R475). -/
def execReadEmbc (k : Kind) (s : State) : Out := execBusRead .y 0xE6#24 k s

/-- `READ HRX` (44_shi.md R384). -/
def execReadHrx (s : State) : Out := execBusRead .x 0x94#24 .ordinary s

/-- `READ.BT HRX` (44_shi.md R385). -/
def execReadBtHrx (s : State) : Out := execBusRead .x 0x94#24 .bitTest s

/-- `READ a:off` of an unmapped offset (41_bus.md R233). -/
def execReadBacking (a : Area) (k : Kind) (off : Word) (s : State) : Out := execBusRead a off k s

end Sys2Proof.Machine
end

