-- ==== Sys2Proof/Machine/BusWrites.lean ====
section
/-! DEFINITION. The meanings of the `BUS_WRITE` transactions (41_bus.md R234), one for each row of the opcode table. The bus
truncates the data, looks the pair up in `bus.map`, and the register's write rule acts. -/

namespace Sys2Proof.Machine

/-- `WRITE PCTL, #v` (46_ancillary.md R470). -/
def execWritePctl (v : Nat) (s : State) : Out := execBusWrite .x 0x7D#24 v s

/-- `WRITE HCKR, #v` (44_shi.md R391). -/
def execWriteHckr (v : Nat) (s : State) : Out := execBusWrite .x 0x90#24 v s

/-- `WRITE HCSR, #v` (44_shi.md R389). -/
def execWriteHcsr (v : Nat) (s : State) : Out := execBusWrite .x 0x91#24 v s

/-- `WRITE HSAR, #v` (44_shi.md R393). -/
def execWriteHsar (v : Nat) (s : State) : Out := execBusWrite .x 0x92#24 v s

/-- `WRITE HTX, #v` (44_shi.md R387). -/
def execWriteHtx (v : Nat) (s : State) : Out := execBusWrite .x 0x93#24 v s

/-- `WRITE HRX, #v` (44_shi.md R386). -/
def execWriteHrx (v : Nat) (s : State) : Out := execBusWrite .x 0x94#24 v s

/-- `WRITE TX0, #v` (43_esai.md R330). -/
def execWriteTx0 (v : Nat) (s : State) : Out := execBusWrite .x 0xA0#24 v s

/-- `WRITE TX1, #v` (43_esai.md R330). -/
def execWriteTx1 (v : Nat) (s : State) : Out := execBusWrite .x 0xA1#24 v s

/-- `WRITE TX2, #v` (43_esai.md R330). -/
def execWriteTx2 (v : Nat) (s : State) : Out := execBusWrite .x 0xA2#24 v s

/-- `WRITE TX3, #v` (43_esai.md R330). -/
def execWriteTx3 (v : Nat) (s : State) : Out := execBusWrite .x 0xA3#24 v s

/-- `WRITE TX4, #v` (43_esai.md R330). -/
def execWriteTx4 (v : Nat) (s : State) : Out := execBusWrite .x 0xA4#24 v s

/-- `WRITE TX5, #v` (43_esai.md R330). -/
def execWriteTx5 (v : Nat) (s : State) : Out := execBusWrite .x 0xA5#24 v s

/-- `WRITE RX0, #v` (43_esai.md R333). -/
def execWriteRx0 (v : Nat) (s : State) : Out := execBusWrite .x 0xA8#24 v s

/-- `WRITE RX1, #v` (43_esai.md R333). -/
def execWriteRx1 (v : Nat) (s : State) : Out := execBusWrite .x 0xA9#24 v s

/-- `WRITE RX2, #v` (43_esai.md R333). -/
def execWriteRx2 (v : Nat) (s : State) : Out := execBusWrite .x 0xAA#24 v s

/-- `WRITE RX3, #v` (43_esai.md R333). -/
def execWriteRx3 (v : Nat) (s : State) : Out := execBusWrite .x 0xAB#24 v s

/-- `WRITE SAISR, #v` (43_esai.md R335). -/
def execWriteSaisr (v : Nat) (s : State) : Out := execBusWrite .x 0xB3#24 v s

/-- `WRITE SAICR, #v` (43_esai.md R340). -/
def execWriteSaicr (v : Nat) (s : State) : Out := execBusWrite .x 0xB4#24 v s

/-- `WRITE TCR, #v` (43_esai.md R336). -/
def execWriteTcr (v : Nat) (s : State) : Out := execBusWrite .x 0xB5#24 v s

/-- `WRITE TCCR, #v` (43_esai.md R342). -/
def execWriteTccr (v : Nat) (s : State) : Out := execBusWrite .x 0xB6#24 v s

/-- `WRITE RCR, #v` (43_esai.md R338). -/
def execWriteRcr (v : Nat) (s : State) : Out := execBusWrite .x 0xB7#24 v s

/-- `WRITE RCCR, #v` (43_esai.md R344). -/
def execWriteRccr (v : Nat) (s : State) : Out := execBusWrite .x 0xB8#24 v s

/-- `WRITE CHIDR, #v` (46_ancillary.md R472). -/
def execWriteChidr (v : Nat) (s : State) : Out := execBusWrite .x 0xF5#24 v s

/-- `WRITE ODBC, #v` (46_ancillary.md R477). -/
def execWriteOdbc (v : Nat) (s : State) : Out := execBusWrite .y 0xE2#24 v s

/-- `WRITE EMBC, #v` (46_ancillary.md R474). -/
def execWriteEmbc (v : Nat) (s : State) : Out := execBusWrite .y 0xE6#24 v s

/-- `WRITE a:off, #v` of an unmapped offset (41_bus.md R235). -/
def execWriteBacking (a : Area) (off : Word) (v : Nat) (s : State) : Out := execBusWrite a off v s

end Sys2Proof.Machine
end

