-- ==== Sys2Proof/Machine/Control.lean ====
section
/-! DEFINITION. The meanings of EXEC, RESET, TERMINATE, BOOT and the debugger's transactions. -/

namespace Sys2Proof.Machine

/-- `EXEC` (41_bus.md R236, R239). -/
def execExec (s : State) : Out :=
  if s.bus.bound then ((execAll s).map fun _ => Result.unit).endE else .fault .unboundCore

/-- `RESET` (41_bus.md R237). -/
def execReset (s : State) : Out := .next (s.resetAll.doneE .unit)

/-- `TERMINATE`, by E or by S (41_bus.md R238). -/
def execTerminate (s : State) : Out := .next (s.terminateAll.reply s.issuer (.done .unit))

/-- `BKPT.SET addr` (45_debugger.md R431). -/
def execBkptSet (addr : Word) (s : State) : Out :=
  .next ((s.setBps (bpInsert addr s.dbg.bps)).reply s.issuer (.done .unit))

/-- `BKPT.DEL addr` (45_debugger.md R432). -/
def execBkptDel (addr : Word) (s : State) : Out :=
  .next ((s.setBps (bpErase addr s.dbg.bps)).reply s.issuer (.done .unit))

/-- `CONT #n`, by C or by S (45_debugger.md R433). -/
def execCont (n : Nat) (s : State) : Out :=
  .next ((s.setMode (contMode n)).reply s.issuer (.done .unit))

/-- `DSTEP` (45_debugger.md R434, 41_bus.md R239). -/
def execDstep (s : State) : Out :=
  if s.bus.bound then dstepFromWait s else .fault .unboundCore

/-- `BOOT` (47_host_streams.md R507, 41_bus.md R239). -/
def execBoot (s : State) : Out :=
  if s.bus.bound then (bootFromCount s).endE else .fault .unboundCore

end Sys2Proof.Machine
end

