-- ==== Sys2Proof/Machine/HostStreams.lean ====
section
/-! DEFINITION. The meanings of the host transactions of 47_host_streams.md. The issuing host is `State.issuer`. -/

namespace Sys2Proof.Machine

/-- A host pushes a data word to a queue; the data is truncated (47_host_streams.md R500). -/
def hostPush (id : QId) (v : Nat) (s : State) : Out := hostRun s.issuer (.push id (trunc24 v)) s

/-- A host pops a word from a queue (47_host_streams.md R500). -/
def hostPop (id : QId) (s : State) : Out := hostRun s.issuer (.pop id) s

/-- A host access to an ESAI channel out of range: a no-op that ends in end-of-stream (47_host_streams.md R505). -/
def hostNoChannel (s : State) : Out := .next (s.reply s.issuer (.done .endOfStream))

/-- `HPUSH SHI_RX, #v` (47_host_streams.md R501). -/
def execHpushShiRx (v : Nat) (s : State) : Out := hostPush .shiRx v s

/-- `HPUSH ESAI_IN0, #v` (47_host_streams.md R503). -/
def execHpushEsaiIn0 (v : Nat) (s : State) : Out := hostPush (.inp 0) v s

/-- `HPUSH ESAI_IN1, #v` (47_host_streams.md R503). -/
def execHpushEsaiIn1 (v : Nat) (s : State) : Out := hostPush (.inp 1) v s

/-- `HPUSH ESAI_IN2, #v` (47_host_streams.md R503). -/
def execHpushEsaiIn2 (v : Nat) (s : State) : Out := hostPush (.inp 2) v s

/-- `HPUSH ESAI_IN3, #v` (47_host_streams.md R503). -/
def execHpushEsaiIn3 (v : Nat) (s : State) : Out := hostPush (.inp 3) v s

/-- `HPUSH ESAI_IN<c>`, c in 4..7 (47_host_streams.md R505). -/
def execHpushEsaiIn4to7 (s : State) : Out := hostNoChannel s

/-- `HPUSH ESAI_IN<c>`, c in 8..15 (47_host_streams.md R505). -/
def execHpushEsaiIn8to15 (s : State) : Out := hostNoChannel s

/-- `HPOP SHI_TX` (47_host_streams.md R502). -/
def execHpopShiTx (s : State) : Out := hostPop .shiTx s

/-- `HPOP ESAI_OUT0` (47_host_streams.md R504). -/
def execHpopEsaiOut0 (s : State) : Out := hostPop (.out 0) s

/-- `HPOP ESAI_OUT1` (47_host_streams.md R504). -/
def execHpopEsaiOut1 (s : State) : Out := hostPop (.out 1) s

/-- `HPOP ESAI_OUT2` (47_host_streams.md R504). -/
def execHpopEsaiOut2 (s : State) : Out := hostPop (.out 2) s

/-- `HPOP ESAI_OUT3` (47_host_streams.md R504). -/
def execHpopEsaiOut3 (s : State) : Out := hostPop (.out 3) s

/-- `HPOP ESAI_OUT4` (47_host_streams.md R504). -/
def execHpopEsaiOut4 (s : State) : Out := hostPop (.out 4) s

/-- `HPOP ESAI_OUT5` (47_host_streams.md R504). -/
def execHpopEsaiOut5 (s : State) : Out := hostPop (.out 5) s

/-- `HPOP ESAI_OUT<c>`, c in 6..7 (47_host_streams.md R505). -/
def execHpopEsaiOut6to7 (s : State) : Out := hostNoChannel s

/-- `HPOP ESAI_OUT<c>`, c in 8..15 (47_host_streams.md R505). -/
def execHpopEsaiOut8to15 (s : State) : Out := hostNoChannel s

end Sys2Proof.Machine
end

