-- ==== Sys2Proof/Machine/Dispatch.lean ====
section
/-! DEFINITION. The dispatch of the instructions to their meanings. -/

namespace Sys2Proof.Machine

def exec (i : Instr) (s : State) : Host.Outcome State Fault Refusal :=
  match i with
  | .readPctl k => Sys2Proof.Machine.execReadPctl k s
  | .readHckr k => Sys2Proof.Machine.execReadHckr k s
  | .readHcsr k => Sys2Proof.Machine.execReadHcsr k s
  | .readHsar k => Sys2Proof.Machine.execReadHsar k s
  | .readHtx k => Sys2Proof.Machine.execReadHtx k s
  | .readTx0 k => Sys2Proof.Machine.execReadTx0 k s
  | .readTx1 k => Sys2Proof.Machine.execReadTx1 k s
  | .readTx2 k => Sys2Proof.Machine.execReadTx2 k s
  | .readTx3 k => Sys2Proof.Machine.execReadTx3 k s
  | .readTx4 k => Sys2Proof.Machine.execReadTx4 k s
  | .readTx5 k => Sys2Proof.Machine.execReadTx5 k s
  | .readRx0 k => Sys2Proof.Machine.execReadRx0 k s
  | .readRx1 k => Sys2Proof.Machine.execReadRx1 k s
  | .readRx2 k => Sys2Proof.Machine.execReadRx2 k s
  | .readRx3 k => Sys2Proof.Machine.execReadRx3 k s
  | .readSaisr k => Sys2Proof.Machine.execReadSaisr k s
  | .readSaicr k => Sys2Proof.Machine.execReadSaicr k s
  | .readTcr k => Sys2Proof.Machine.execReadTcr k s
  | .readTccr k => Sys2Proof.Machine.execReadTccr k s
  | .readRcr k => Sys2Proof.Machine.execReadRcr k s
  | .readRccr k => Sys2Proof.Machine.execReadRccr k s
  | .readChidr k => Sys2Proof.Machine.execReadChidr k s
  | .readOdbc k => Sys2Proof.Machine.execReadOdbc k s
  | .readEmbc k => Sys2Proof.Machine.execReadEmbc k s
  | .readHrx => Sys2Proof.Machine.execReadHrx s
  | .readBtHrx => Sys2Proof.Machine.execReadBtHrx s
  | .writePctl v => Sys2Proof.Machine.execWritePctl v s
  | .writeHckr v => Sys2Proof.Machine.execWriteHckr v s
  | .writeHcsr v => Sys2Proof.Machine.execWriteHcsr v s
  | .writeHsar v => Sys2Proof.Machine.execWriteHsar v s
  | .writeHtx v => Sys2Proof.Machine.execWriteHtx v s
  | .writeHrx v => Sys2Proof.Machine.execWriteHrx v s
  | .writeTx0 v => Sys2Proof.Machine.execWriteTx0 v s
  | .writeTx1 v => Sys2Proof.Machine.execWriteTx1 v s
  | .writeTx2 v => Sys2Proof.Machine.execWriteTx2 v s
  | .writeTx3 v => Sys2Proof.Machine.execWriteTx3 v s
  | .writeTx4 v => Sys2Proof.Machine.execWriteTx4 v s
  | .writeTx5 v => Sys2Proof.Machine.execWriteTx5 v s
  | .writeRx0 v => Sys2Proof.Machine.execWriteRx0 v s
  | .writeRx1 v => Sys2Proof.Machine.execWriteRx1 v s
  | .writeRx2 v => Sys2Proof.Machine.execWriteRx2 v s
  | .writeRx3 v => Sys2Proof.Machine.execWriteRx3 v s
  | .writeSaisr v => Sys2Proof.Machine.execWriteSaisr v s
  | .writeSaicr v => Sys2Proof.Machine.execWriteSaicr v s
  | .writeTcr v => Sys2Proof.Machine.execWriteTcr v s
  | .writeTccr v => Sys2Proof.Machine.execWriteTccr v s
  | .writeRcr v => Sys2Proof.Machine.execWriteRcr v s
  | .writeRccr v => Sys2Proof.Machine.execWriteRccr v s
  | .writeChidr v => Sys2Proof.Machine.execWriteChidr v s
  | .writeOdbc v => Sys2Proof.Machine.execWriteOdbc v s
  | .writeEmbc v => Sys2Proof.Machine.execWriteEmbc v s
  | .exec => Sys2Proof.Machine.execExec s
  | .reset => Sys2Proof.Machine.execReset s
  | .terminate => Sys2Proof.Machine.execTerminate s
  | .hpushShiRx v => Sys2Proof.Machine.execHpushShiRx v s
  | .hpushEsaiIn0 v => Sys2Proof.Machine.execHpushEsaiIn0 v s
  | .hpushEsaiIn1 v => Sys2Proof.Machine.execHpushEsaiIn1 v s
  | .hpushEsaiIn2 v => Sys2Proof.Machine.execHpushEsaiIn2 v s
  | .hpushEsaiIn3 v => Sys2Proof.Machine.execHpushEsaiIn3 v s
  | .hpushEsaiIn4to7 _ _ => Sys2Proof.Machine.execHpushEsaiIn4to7 s
  | .hpushEsaiIn8to15 _ _ => Sys2Proof.Machine.execHpushEsaiIn8to15 s
  | .hpopShiTx => Sys2Proof.Machine.execHpopShiTx s
  | .hpopEsaiOut0 => Sys2Proof.Machine.execHpopEsaiOut0 s
  | .hpopEsaiOut1 => Sys2Proof.Machine.execHpopEsaiOut1 s
  | .hpopEsaiOut2 => Sys2Proof.Machine.execHpopEsaiOut2 s
  | .hpopEsaiOut3 => Sys2Proof.Machine.execHpopEsaiOut3 s
  | .hpopEsaiOut4 => Sys2Proof.Machine.execHpopEsaiOut4 s
  | .hpopEsaiOut5 => Sys2Proof.Machine.execHpopEsaiOut5 s
  | .hpopEsaiOut6to7 _ => Sys2Proof.Machine.execHpopEsaiOut6to7 s
  | .hpopEsaiOut8to15 _ => Sys2Proof.Machine.execHpopEsaiOut8to15 s
  | .bkptSet addr => Sys2Proof.Machine.execBkptSet addr s
  | .bkptDel addr => Sys2Proof.Machine.execBkptDel addr s
  | .cont n => Sys2Proof.Machine.execCont n s
  | .dstep => Sys2Proof.Machine.execDstep s
  | .boot => Sys2Proof.Machine.execBoot s
  | .readBacking a k off => Sys2Proof.Machine.execReadBacking a k off s
  | .writeBacking a off v => Sys2Proof.Machine.execWriteBacking a off v s

end Sys2Proof.Machine
end

