-- ==== Sys2Proof/Machine/Step.lean ====
section
/-! DEFINITION. One step of the machine, and how a word is placed where the next step fetches it. -/

namespace Sys2Proof.Machine

/-- One step: the head of the schedule is taken, and the agent it names issues its transaction or goes on with the one it is
held in (00_scope.md R12, R13; log 3). -/
def step (s : State) : Host.Outcome State Fault Refusal :=
  match fetch s with
  | .idle s' => .next s'
  | .refuse r => .refused r
  | .run i s' => exec i s'
  | .goOn ag s' => resume ag s'

/-- The state in which the next step fetches and runs the transaction whose code is the low 32 bits of `w` and whose operand is
the bits above: it is put before the schedule, issued by the agent 30_encoding.md R142 names first, and that agent is made
ready (log 8). -/
def State.withFetchWord (s : State) (nbits w : Nat) : State :=
  let code := BitVec.ofNat 32 (w % 2 ^ nbits)
  let ag := defaultAgent (fieldsOf code).op
  let s1 := s.makeReady ag
  { s1 with sched := .issue ag code (w % 2 ^ nbits / 2 ^ 32) :: s1.sched }

end Sys2Proof.Machine
end

