-- ==== Sys2Proof/Machine/Asm.lean ====
section
/-! DEFINITION. The assembler syntax of 30_encoding.md R162 and the pseudo-instructions of R163: the lines, the (code, operand)
pair each stands for, written from the table of R162, their text, and the schedule a program of them is. -/

namespace Sys2Proof.Machine

/-- A line of the syntax (30_encoding.md R162); a register name may stand for its area and offset. -/
inductive AsmLine where
  | read (a : Area) (off : Word)
  | readBt (a : Area) (off : Word)
  | write (a : Area) (off : Word) (v : Nat)
  | readReg (r : Reg)
  | readBtReg (r : Reg)
  | writeReg (r : Reg) (v : Nat)
  | exec
  | reset
  | terminate
  | hpushShiRx (v : Nat)
  | hpushEsaiIn (c : Fin 16) (v : Nat)
  | hpopShiTx
  | hpopEsaiOut (c : Fin 16)
  | bkptSet (addr : Word)
  | bkptDel (addr : Word)
  | cont (n : Nat)
  | dstep
  | boot
  deriving DecidableEq, Repr

/-- `AREA<<27` (30_encoding.md R162). -/
def asmArea (a : Area) : Code :=
  match a with
  | .x => 0#32
  | .y => 1#32 <<< 27

/-- The (code, operand) pair of a line (30_encoding.md R162). -/
def assemble : AsmLine → Code × Nat
  | .read a off => (0x00000000#32 ||| asmArea a ||| off.setWidth 32, 0)
  | .readBt a off => (0x04000000#32 ||| asmArea a ||| off.setWidth 32, 0)
  | .write a off v => (0x10000000#32 ||| asmArea a ||| off.setWidth 32, v)
  | .readReg r => (0x00000000#32 ||| asmArea (regAddr r).1 ||| (regAddr r).2.setWidth 32, 0)
  | .readBtReg r => (0x04000000#32 ||| asmArea (regAddr r).1 ||| (regAddr r).2.setWidth 32, 0)
  | .writeReg r v => (0x10000000#32 ||| asmArea (regAddr r).1 ||| (regAddr r).2.setWidth 32, v)
  | .exec => (0x20000000#32, 0)
  | .reset => (0x30000000#32, 0)
  | .terminate => (0x40000000#32, 0)
  | .hpushShiRx v => (0x50000000#32, v)
  | .hpushEsaiIn c v => (0x50000010#32 + BitVec.ofNat 32 c.val, v)
  | .hpopShiTx => (0x60000001#32, 0)
  | .hpopEsaiOut c => (0x60000020#32 + BitVec.ofNat 32 c.val, 0)
  | .bkptSet addr => (0x70000000#32 ||| addr.setWidth 32, 0)
  | .bkptDel addr => (0x80000000#32 ||| addr.setWidth 32, 0)
  | .cont n => (0x90000000#32, n)
  | .dstep => (0xA0000000#32, 0)
  | .boot => (0xB0000000#32, 0)

/-- A natural in hexadecimal with `0x` (30_encoding.md R162). -/
def hexText (n : Nat) : String := "0x" ++ String.ofList (Nat.toDigits 16 n)

/-- The name of a register (10_state.md R62). -/
def regName : Reg → String
  | .pctl => "PCTL"
  | .hckr => "HCKR"
  | .hcsr => "HCSR"
  | .hsar => "HSAR"
  | .htx => "HTX"
  | .hrx => "HRX"
  | .tx c => "TX" ++ toString c.val
  | .rx c => "RX" ++ toString c.val
  | .saisr => "SAISR"
  | .saicr => "SAICR"
  | .tcr => "TCR"
  | .tccr => "TCCR"
  | .rcr => "RCR"
  | .rccr => "RCCR"
  | .chidr => "CHIDR"
  | .odbc => "ODBC"
  | .embc => "EMBC"

/-- An address as `X:0xoo` (00_scope.md R10). -/
def addrText (a : Area) (off : Word) : String :=
  (match a with
    | .x => "X:"
    | .y => "Y:") ++ hexText off.toNat

/-- The text of a line (30_encoding.md R162). -/
def asmText : AsmLine → String
  | .read a off => "READ " ++ addrText a off
  | .readBt a off => "READ.BT " ++ addrText a off
  | .write a off v => "WRITE " ++ addrText a off ++ ", #" ++ hexText v
  | .readReg r => "READ " ++ regName r
  | .readBtReg r => "READ.BT " ++ regName r
  | .writeReg r v => "WRITE " ++ regName r ++ ", #" ++ hexText v
  | .exec => "EXEC"
  | .reset => "RESET"
  | .terminate => "TERMINATE"
  | .hpushShiRx v => "HPUSH SHI_RX, #" ++ hexText v
  | .hpushEsaiIn c v => "HPUSH ESAI_IN" ++ toString c.val ++ ", #" ++ hexText v
  | .hpopShiTx => "HPOP SHI_TX"
  | .hpopEsaiOut c => "HPOP ESAI_OUT" ++ toString c.val
  | .bkptSet addr => "BKPT.SET " ++ hexText addr.toNat
  | .bkptDel addr => "BKPT.DEL " ++ hexText addr.toNat
  | .cont n => "CONT #" ++ toString n
  | .dstep => "DSTEP"
  | .boot => "BOOT"

/-- A line with the agent that may be named before it (30_encoding.md R162). -/
structure AsmStmt where
  agent : Option Agent
  line : AsmLine
  deriving DecidableEq, Repr

/-- The schedule entry of a line; where no agent is named it is the one 30_encoding.md R142 assigns (R162). -/
def asmEntry (st : AsmStmt) : Entry :=
  let c := assemble st.line
  .issue (st.agent.getD (defaultAgent (fieldsOf c.1).op)) c.1 c.2

/-- The pseudo-instructions (30_encoding.md R163). -/
inductive Pseudo where
  | run
  | step
  | teardown
  deriving DecidableEq, Repr

/-- Their expansions (30_encoding.md R163). -/
def pseudoExpand : Pseudo → List AsmStmt
  | .run => [⟨none, .cont 0⟩]
  | .step => [⟨none, .cont 1⟩]
  | .teardown => [⟨some .s, .terminate⟩, ⟨some .s, .cont 0⟩]

end Sys2Proof.Machine
end

