-- ==== Sys2Proof/Safety.lean ====
section
/-! DEFINITION. What is legal in a state, in the terms the claims use. -/

namespace Sys2Proof.Machine

/-- The bus map holds exactly the 25 registers of the documented map (10_state.md R31, R62). -/
def State.Mapped (s : State) : Prop := s.bus.map = regTable

/-- The invariant of the machine: the map is the documented one, the memories are canonical and in range, every queue holds at
most QCAP words, the counted-run state has a positive count, the breakpoint set is canonical, the snapshot fits the counter, an
Aborted E is held nowhere, and no host is held twice. -/
structure State.Inv (s : State) : Prop where
  /-- 10_state.md R31. -/
  mapped : s.Mapped
  /-- 10_state.md R33; log 7. -/
  memX : s.bus.memX.wf s.cfg.backingWords (initialWord s.cfg .x) = true
  /-- 10_state.md R33; log 7. -/
  memY : s.bus.memY.wf s.cfg.backingWords (initialWord s.cfg .y) = true
  /-- 10_state.md R56. -/
  queues : ∀ id, (s.queue id).items.length ≤ Config.qcap
  /-- 10_state.md R53. -/
  mode : s.dbg.mode ≠ .running (some 0)
  /-- 10_state.md R54. -/
  bps : bpsWf s.dbg.bps = true
  /-- 10_state.md R48. -/
  snap : s.esai.snap < 2 ^ s.cfg.cycW
  /-- 10_state.md R55. -/
  aborted : s.e.status = .aborted → s.e.held = none
  /-- 00_scope.md R13. -/
  hosts : (s.hosts.map Prod.fst).Nodup

/-- The SHI stands before the ESAI in `bus.list`, so its `exec()` comes first in an EXEC (41_bus.md R230, R236). -/
def shiFirst (o : PeriphOrder) : Bool := decide ((periphList o).idxOf .shi < (periphList o).idxOf .esai)

/-- The peripherals that come after the ESAI in `bus.list` (41_bus.md R230, R236). -/
def afterEsai (o : PeriphOrder) : List Periph := (periphList o).drop ((periphList o).idxOf .esai + 1)

/-- The number of interrupt requests in a history (60_exceptions.md R540). -/
def injectCount (h : List Event) : Nat :=
  h.countP fun ev =>
    match ev with
    | .inject _ => true
    | _ => false

/-- Every enabled output channel has a queue that is open and has room. -/
def State.OutputsReady (s : State) : Prop :=
  ∀ c : Fin 6, s.esai.tcr.getLsbD c.val = true →
    (s.queue (.out c)).shut = false ∧ (s.queue (.out c)).items.length < Config.qcap

/-- Every enabled input channel has a queue that is open. -/
def State.InputsOpen (s : State) : Prop :=
  ∀ c : Fin 4, s.esai.rcr.getLsbD c.val = true → (s.queue (.inp c)).shut = false

end Sys2Proof.Machine
end

