-- ==== Sys2Proof/Certificates/Slice0/Obligations.lean ====
section
/-! DEFINITION. The statements for the provers. The helper definitions under `Sys2Proof.Claims` write the rules' values out in
bits and numbers, beside the model's own functions. -/

namespace Sys2Proof.Claims

open Sys2Proof.Machine

/-- TE, from the bits of TCR (10_state.md R39). -/
def te (s : State) : BitVec 6 := s.esai.tcr.extractLsb' 0 6

/-- HRIE, from the bits of HCSR (10_state.md R34). -/
def hrie (s : State) : BitVec 2 := s.shi.hcsr.extractLsb' 12 2

/-- HEN, from the bits of HCSR (10_state.md R34). -/
def hen (s : State) : Bool := s.shi.hcsr.getLsbD 0

/-- HTIE, from the bits of HCSR (10_state.md R34). -/
def htie (s : State) : Bool := s.shi.hcsr.getLsbD 11

/-- The elapsed cycles `(now - snap) mod 2^CYC_W` (43_esai.md R312). -/
def elapsedNow (s : State) : Nat := (((s.core.counter : Int) - (s.esai.snap : Int)) % (2 : Int) ^ s.cfg.cycW).toNat

/-- A transaction of E that is done with a word and changes nothing but as `s` says. Endings are recorded in `replies`, a field of
the model's own (log 6). -/
def doneWord (w : Word) (s : State) : Out := .next (s.reply .e (.done (.word w)))

/-- A transaction of E that is done with no result and changes nothing but as `s` says; its ending is recorded (log 6). -/
def doneUnit (s : State) : Out := .next (s.reply .e (.done .unit))

/-- The state with an event more. -/
def logged (d : Diag) (s : State) : State := { s with hist := s.hist ++ [.log d] }

/-- The bits a six-bit set and the written mask share with TE are all of TE (43_esai.md R330). -/
def complete (s : State) (wmask : BitVec 6) : Bool := decide (wmask &&& te s = te s)

/-- The state `WRITE TXc` leaves (43_esai.md R330). -/
def txWritten (c : Fin 6) (v : Nat) (s : State) : State :=
  if s.esai.tcr.getLsbD c.val then
    { s with esai := { s.esai with
        txw := s.esai.txw.set c (BitVec.ofNat 24 v)
        wmask := s.esai.wmask ||| 1#6 <<< c.val
        tue := if complete s (s.esai.wmask ||| 1#6 <<< c.val) ∧ s.esai.stRead = true then false else s.esai.tue
        tde := if complete s (s.esai.wmask ||| 1#6 <<< c.val) then false else s.esai.tde } }
  else logged (.disabledChannel (.tx c)) s

/-- What `READ RXc` gives (43_esai.md R332). -/
def rxRead (c : Fin 4) (s : State) : Out :=
  if s.esai.rcr.getLsbD c.val then doneWord s.esai.rxw[c] s
  else doneWord 0 (logged (.disabledChannel (.rx c)) s)

/-- The SHI registers and counters after one SHI tick (44_shi.md R380). -/
def shiTicked (s : State) : ShiState :=
  if hen s = false then s.shi
  else if 0 < s.shi.pendRx ∧ hrie s ≠ 0#2 then { s.shi with pendRx := s.shi.pendRx - 1 }
  else if htie s = true ∧ 0 < s.shi.pendTx then { s.shi with pendTx := s.shi.pendTx - 1 }
  else s.shi

/-- The interrupt requests of one SHI tick (44_shi.md R380, R382). -/
def shiRequests (s : State) : List Event :=
  if hen s = false then []
  else if 0 < s.shi.pendRx ∧ hrie s ≠ 0#2 then
    (if hrie s = 1#2 ∧ s.shi.rxq.items ≠ [] then [.inject s.cfg.vecShiRne]
    else if hrie s = 3#2 ∧ s.shi.rxq.items.length = 8192 then [.inject s.cfg.vecShiRff]
    else [])
  else if htie s = true ∧ 0 < s.shi.pendTx then [.inject s.cfg.vecShiTd]
  else []

/-- The interrupt requests of one ESAI transfer tick (43_esai.md R316). -/
def esaiRequests (s : State) : List Event :=
  (if s.esai.tcr.getLsbD 22 then [.inject s.cfg.vecEsaiTd] else []) ++
    (if s.esai.tfs = false ∧ s.esai.tcr.getLsbD 23 = true then [.inject s.cfg.vecEsaiTls] else [])

/-- The pending-RX count after a word has come into rxq (44_shi.md R386). -/
def rxCounted (s : State) : Nat := if hen s = true ∧ hrie s ≠ 0#2 then s.shi.pendRx + 1 else s.shi.pendRx

/-- A run of bare EXECs: the counter advances by each number in turn before its EXEC, and every EXEC ends. -/
def feed : List Nat → State → Option State
  | [], s => some s
  | d :: ds, s =>
    match exec .exec { s with core := { s.core with counter := s.core.counter + d } } with
    | .next t => if t.e = s.e then feed ds t else none
    | _ => none

/-- The transaction of the core's bus access (60_exceptions.md R546; 30_encoding.md R148). -/
def accessInstr : BusTxn → Instr
  | .read a off k => decodeRead a k off
  | .write a off v => decodeWrite a off v

/-- A run of bus accesses by E, one transaction after the other, and every one ends. -/
def accesses : List BusTxn → State → Option State
  | [], s => some s
  | x :: xs, s =>
    match exec (accessInstr x) s with
    | .next t => if t.e = s.e then accesses xs t else none
    | _ => none

/-- The mode after an instruction that was executed in a running mode (45_debugger.md R434). -/
def countedDown : Option Nat → DbgMode
  | none => .running none
  | some k => if k = 1 then .stopped else .running (some (k - 1))

/-- A run of DSTEPs, each with the core as the engine then sees it, and every DSTEP ends. -/
def dsteps : List CoreView → State → Option State
  | [], s => some s
  | v :: vs, s =>
    match exec .dstep { s with core := v } with
    | .next t => if t.e = s.e then dsteps vs t else none
    | _ => none

/-- An operation on a queue. -/
inductive QueueOp where
  | push (v : Word)
  | pop

/-- A run of pushes and pops on an open queue: an operation that must wait is left out. The result is the queue, the words
pushed and the words popped, each oldest first. -/
def queueRun : List QueueOp → Queue → List Word → List Word → Queue × List Word × List Word
  | [], q, ins, outs => (q, ins, outs)
  | .push v :: ops, q, ins, outs =>
    match q.push v with
    | .ok q' => queueRun ops q' (ins ++ [v]) outs
    | _ => queueRun ops q ins outs
  | .pop :: ops, q, ins, outs =>
    match q.pop with
    | .ok (w, q') => queueRun ops q' ins (outs ++ [w])
    | _ => queueRun ops q ins outs

/-- The core writes of a boot: word `i` of `ws` at address `a + i` (47_host_streams.md R507). -/
def bootWrites (a : Word) (ws : List Word) : List Event :=
  ws.zipIdx.map fun p => .pmemSet (a + BitVec.ofNat 24 p.2) p.1

/-- The stream ids HOST_PUSH takes (30_encoding.md R149). -/
def pushStream (arg : Nat) : Prop := arg = 0 ∨ (0x10 ≤ arg ∧ arg ≤ 0x1F)

/-- The stream ids HOST_POP takes (30_encoding.md R149). -/
def popStream (arg : Nat) : Prop := arg = 1 ∨ (0x20 ≤ arg ∧ arg ≤ 0x2F)

/-- A code is not admitted: the clauses of 30_encoding.md R160, on the bits of R141. -/
def notAdmitted (code : Code) (operand : Nat) : Prop :=
  let op := code.toNat / 2 ^ 28
  let arg := code.toNat % 2 ^ 24
  12 ≤ op ∨ (code.getLsbD 24 = true ∨ code.getLsbD 25 = true) ∨ (code.getLsbD 27 = true ∧ op ≠ 0 ∧ op ≠ 1) ∨
    (code.getLsbD 26 = true ∧ op ≠ 0) ∨
    (arg ≠ 0 ∧ (op = 2 ∨ op = 3 ∨ op = 4 ∨ op = 9 ∨ op = 10 ∨ op = 11)) ∨
    (op = 5 ∧ ¬ pushStream arg) ∨ (op = 6 ∧ ¬ popStream arg) ∨
    (operand ≠ 0 ∧ op ≠ 1 ∧ op ≠ 5 ∧ op ≠ 9)

end Sys2Proof.Claims

open Sys2Proof Sys2Proof.Machine Sys2Proof.Claims

/-! ### Encoding -/

/-- 30_encoding.md R150, R151: the code of a well-formed transaction decodes to it. -/
def Obligations.DecodeOfEncode : Prop :=
  ∀ i : Instr, i.wf = true → decode (encode i).1 (encode i).2 = .ok i

/-- 30_encoding.md R151: what a code decodes to is well-formed and encodes to that code and operand, no bit dropped. -/
def Obligations.EncodeOfDecode : Prop :=
  ∀ (code : Code) (operand : Nat) (i : Instr), decode code operand = .ok i → i.wf = true ∧ encode i = (code, operand)

/-- 30_encoding.md R160: a step that meets a transaction refuses its code exactly when one of the clauses (a) to (g) holds of it. A
refusal has no next state. -/
def Obligations.RefusesExactlyInadmissibleCodes : Prop :=
  ∀ (s : State) (ag : Agent) (code : Code) (operand : Nat) (rest : List Entry),
    s.sched = .issue ag code operand :: rest →
    ((∃ r, step s = .refused (.encoding r)) ↔ notAdmitted code operand)

/-- 30_encoding.md R148, R149: words written out from the spec's tables decode to their transactions. -/
def Obligations.SampleWordsDecode : Prop :=
  decode 0x00000094#32 0 = .ok .readHrx ∧ decode 0x04000094#32 0 = .ok .readBtHrx ∧
  decode 0x040000B3#32 0 = .ok (.readSaisr .bitTest) ∧ decode 0x180000E6#32 0x00ABCD = .ok (.writeEmbc 0x00ABCD) ∧
  decode 0x08000094#32 0 = .ok (.readBacking .y .ordinary 0x94#24) ∧ decode 0x100000A5#32 7 = .ok (.writeTx5 7) ∧
  decode 0x20000000#32 0 = .ok .exec ∧ decode 0x50000013#32 9 = .ok (.hpushEsaiIn3 9) ∧
  decode 0x6000002F#32 0 = .ok (.hpopEsaiOut8to15 15) ∧ decode 0x70123456#32 0 = .ok (.bkptSet 0x123456#24) ∧
  decode 0x90000000#32 5 = .ok (.cont 5) ∧ decode 0xB0000000#32 0 = .ok .boot

/-! ### The step -/

/-- 00_scope.md R12; 30_encoding.md R142; the schedule is the model's (DESIGN CHOICE, log 3 and log 8): when the head of the schedule
gives an agent a transaction that is its to issue and the agent has a step, the step is `exec` of the decoded transaction, at the
state with that entry taken and that agent as the issuer. A word placed by `withFetchWord` is the transaction the next step runs,
issued by the agent R142 names first. -/
def Obligations.StepRunsDecodedTransaction : Prop :=
  (∀ (s : State) (ag : Agent) (code : Code) (operand : Nat) (rest : List Entry) (i : Instr),
    s.sched = .issue ag code operand :: rest → decode code operand = .ok i →
    agentMayIssue ag (fieldsOf code).op = true → s.ready ag = true →
    step s = exec i { s with sched := rest, issuer := ag }) ∧
  (∀ (s : State) (w : Nat) (i : Instr), decodeTableWord 32 w = some i →
    step (s.withFetchWord 32 w) =
      exec i { s.makeReady (defaultAgent (fieldsOf (BitVec.ofNat 32 w)).op) with
        issuer := defaultAgent (fieldsOf (BitVec.ofNat 32 w)).op })

/-- 10_state.md R55: E is Live at construction; a step that ends a transaction of E in an abort leaves E Aborted; no step makes an
Aborted E Live; and an entry for an Aborted E changes nothing but the schedule. The schedule and the recorded endings are the
model's (DESIGN CHOICE, logs 3 and 6). -/
def Obligations.AbortedHasNoFurtherStep : Prop :=
  State.reset.e.status = .live ∧
  (∀ (s t : State) (rs : List Reply), step s = .next t → t.replies = s.replies ++ rs → ⟨.e, .abort⟩ ∈ rs →
    t.e.status = .aborted) ∧
  (∀ s t : State, s.e.status = .aborted → step s = .next t → t.e.status = .aborted) ∧
  (∀ (s : State) (code : Code) (operand : Nat) (rest : List Entry) (i : Instr), s.e.status = .aborted →
    s.sched = .issue .e code operand :: rest → decode code operand = .ok i →
    agentMayIssue .e (fieldsOf code).op = true → step s = .next { s with sched := rest }) ∧
  (∀ (s : State) (rest : List Entry), s.e.status = .aborted → s.sched = .resume .e :: rest →
    step s = .next { s with sched := rest })

/-- 00_scope.md R13: a held transaction is resumed, not restarted. 44_shi.md R384, R386: E's read of an empty rxq holds, a host's
word comes in, and the resumed read returns that word and ends. 43_esai.md R314, R310: an EXEC held at the push to output channel `c`
holds again, with nothing changed, while that queue is full; when it has room, and the later enabled outputs have room and the
enabled inputs are open, the resumed EXEC pushes to `c` and to the enabled channels above it, does steps 4b to 7, and gives the SHI
its tick if that comes after the ESAI's; CPS is not taken off again and no cycles are counted. How a hold is held is the model's
(log 4). -/
def Obligations.HeldReadAndHeldExecAreResumed : Prop :=
  (∀ (s : State) (k v : Nat), s.Mapped → s.e = { status := .live, held := none } →
    s.shi.rxq = { items := [], shut := false } →
    ∃ t u w, exec .readHrx s = .next t ∧ t.e.held = some (.queue .hrxRead .bare) ∧ t.replies = s.replies ∧
      exec (.hpushShiRx v) { t with issuer := .h k } = .next u ∧
      resume .e u = .next w ∧ w.e = { status := .live, held := none } ∧ w.shi.rxq = { items := [], shut := false } ∧
      w.shi.pendRx = rxCounted s ∧
      w.replies = s.replies ++ [⟨.h k, .done .unit⟩, ⟨.e, .done (.word (BitVec.ofNat 24 v))⟩]) ∧
  (∀ (s : State) (c : Fin 6),
    s.e = { status := .live, held := some (.queue (.esaiOut c (afterEsai s.cfg.order)) .bare) } →
    s.esai.outq[c].shut = false →
    (8192 ≤ s.esai.outq[c].items.length → resume .e s = .next s) ∧
    (s.esai.outq[c].items.length < 8192 →
      (∀ d : Fin 6, c < d → s.esai.tcr.getLsbD d.val = true →
        s.esai.outq[d].shut = false ∧ s.esai.outq[d].items.length < 8192) →
      s.InputsOpen →
      ∃ t : State, resume .e s = doneUnit t ∧
        (∀ d : Fin 6, t.esai.outq[d] = if d = c ∨ (c < d ∧ s.esai.tcr.getLsbD d.val = true) then
          { items := s.esai.outq[d].items ++ [s.esai.txw[d]], shut := false } else s.esai.outq[d]) ∧
        (∀ d : Fin 4, t.esai.inq[d] = if s.esai.rcr.getLsbD d.val then
          { items := s.esai.inq[d].items.tail, shut := false } else s.esai.inq[d]) ∧
        (∀ d : Fin 4, t.esai.rxw[d] = if s.esai.rcr.getLsbD d.val then s.esai.inq[d].items.headD 0 else s.esai.rxw[d]) ∧
        t.esai = { s.esai with
          outq := t.esai.outq
          inq := t.esai.inq
          rxw := t.esai.rxw
          tfs := !s.esai.tfs
          tue := true
          tde := true
          wmask := 0#6
          stRead := false } ∧
        t.shi = (if shiFirst s.cfg.order then s.shi else shiTicked s) ∧
        t.hist = s.hist ++ esaiRequests s ++ (if shiFirst s.cfg.order then [] else shiRequests s) ∧
        t = { s with e := { status := .live, held := none }, shi := t.shi, esai := t.esai, hist := t.hist }))

/-! ### Register accesses -/

/-- 43_esai.md R337, R339, R341, R343, R345; 44_shi.md R392, R394; 46_ancillary.md R475: a read of a storage register of either
kind returns the stored word and changes nothing else. -/
def Obligations.StorageRegistersRead : Prop :=
  ∀ (s : State) (k : Kind), s.Mapped →
    exec (.readTcr k) s = doneWord s.esai.tcr s ∧ exec (.readRcr k) s = doneWord s.esai.rcr s ∧
    exec (.readSaicr k) s = doneWord s.esai.saicr s ∧ exec (.readTccr k) s = doneWord s.esai.tccr s ∧
    exec (.readRccr k) s = doneWord s.esai.rccr s ∧ exec (.readHckr k) s = doneWord s.shi.hckr s ∧
    exec (.readHsar k) s = doneWord s.shi.hsar s ∧ exec (.readEmbc k) s = doneWord s.embc s

/-- 43_esai.md R336, R338, R340, R342, R344; 44_shi.md R391, R393; 46_ancillary.md R474: a write of a storage register stores the
data truncated to 24 bits and changes nothing else. -/
def Obligations.StorageRegistersWrite : Prop :=
  ∀ (s : State) (v : Nat), s.Mapped →
    exec (.writeTcr v) s = doneUnit { s with esai := { s.esai with tcr := BitVec.ofNat 24 v } } ∧
    exec (.writeRcr v) s = doneUnit { s with esai := { s.esai with rcr := BitVec.ofNat 24 v } } ∧
    exec (.writeSaicr v) s = doneUnit { s with esai := { s.esai with saicr := BitVec.ofNat 24 v } } ∧
    exec (.writeTccr v) s = doneUnit { s with esai := { s.esai with tccr := BitVec.ofNat 24 v } } ∧
    exec (.writeRccr v) s = doneUnit { s with esai := { s.esai with rccr := BitVec.ofNat 24 v } } ∧
    exec (.writeHckr v) s = doneUnit { s with shi := { s.shi with hckr := BitVec.ofNat 24 v } } ∧
    exec (.writeHsar v) s = doneUnit { s with shi := { s.shi with hsar := BitVec.ofNat 24 v } } ∧
    exec (.writeEmbc v) s = doneUnit { s with embc := BitVec.ofNat 24 v }

/-- 43_esai.md R331; 44_shi.md R388; 46_ancillary.md R473: a read of a write-only register returns 0, logs, and changes nothing
else. 46_ancillary.md R470, 60_exceptions.md R536: a write of the one that stores nothing, PCTL, changes nothing and logs nothing. -/
def Obligations.WriteOnlyRegistersReadZero : Prop :=
  ∀ (s : State) (k : Kind) (v : Nat), s.Mapped →
    exec (.writePctl v) s = doneUnit s ∧
    exec (.readPctl k) s = doneWord 0 (logged (.writeOnlyRead .pctl) s) ∧
    exec (.readHtx k) s = doneWord 0 (logged (.writeOnlyRead .htx) s) ∧
    exec (.readTx0 k) s = doneWord 0 (logged (.writeOnlyRead (.tx 0)) s) ∧
    exec (.readTx1 k) s = doneWord 0 (logged (.writeOnlyRead (.tx 1)) s) ∧
    exec (.readTx2 k) s = doneWord 0 (logged (.writeOnlyRead (.tx 2)) s) ∧
    exec (.readTx3 k) s = doneWord 0 (logged (.writeOnlyRead (.tx 3)) s) ∧
    exec (.readTx4 k) s = doneWord 0 (logged (.writeOnlyRead (.tx 4)) s) ∧
    exec (.readTx5 k) s = doneWord 0 (logged (.writeOnlyRead (.tx 5)) s)

/-- 43_esai.md R333, R335; 46_ancillary.md R472: a write of a read-only register is ignored and logged. -/
def Obligations.ReadOnlyRegistersIgnoreWrites : Prop :=
  ∀ (s : State) (v : Nat), s.Mapped →
    exec (.writeChidr v) s = doneUnit (logged (.readOnlyWrite .chidr) s) ∧
    exec (.writeSaisr v) s = doneUnit (logged (.readOnlyWrite .saisr) s) ∧
    exec (.writeRx0 v) s = doneUnit (logged (.readOnlyWrite (.rx 0)) s) ∧
    exec (.writeRx1 v) s = doneUnit (logged (.readOnlyWrite (.rx 1)) s) ∧
    exec (.writeRx2 v) s = doneUnit (logged (.readOnlyWrite (.rx 2)) s) ∧
    exec (.writeRx3 v) s = doneUnit (logged (.readOnlyWrite (.rx 3)) s)

/-- 46_ancillary.md R476, R477: a read of ODBC returns 0 and a write of it is a no-op; neither changes or logs anything. -/
def Obligations.OdbcReadsZeroAndStoresNothing : Prop :=
  ∀ (s : State) (k : Kind) (v : Nat), s.Mapped →
    exec (.readOdbc k) s = doneWord 0 s ∧ exec (.writeOdbc v) s = doneUnit s

/-- 46_ancillary.md R471: CHIDR returns `(0x720 | (CORE_INDEX << 16)) mod 2^24`, with no side effect; for an index below 2^8 it is
`0x720 + CORE_INDEX * 0x10000`. The formula is followed, not the rule's remark on zero bits (DEDUCED, log 14). -/
def Obligations.ChidrShowsCoreIndex : Prop :=
  ∀ (s : State) (k : Kind), s.Mapped →
    ∃ w : Word, exec (.readChidr k) s = doneWord w s ∧
      w.toNat = (0x720 ||| (s.cfg.coreIndex <<< 16)) % 2 ^ 24 ∧
      (s.cfg.coreIndex < 2 ^ 8 → w.toNat = 0x720 + s.cfg.coreIndex * 0x10000)

/-- 44_shi.md R389, R390: a write of HCSR stores bits 13:0 and touches neither counter nor queue; a read of either kind returns the
stored bits with HRNE at bit 17, computed from rxq, and 0 at bits 16:14 and 23:18, and changes nothing. -/
def Obligations.HcsrStoresAndShowsNotEmpty : Prop :=
  ∀ (s : State) (k : Kind) (v : Nat), s.Mapped →
    exec (.writeHcsr v) s = doneUnit { s with shi := { s.shi with hcsr := BitVec.ofNat 14 v } } ∧
    ∃ w : Word, exec (.readHcsr k) s = doneWord w s ∧
      w.toNat = s.shi.hcsr.toNat + (if s.shi.rxq.items = [] then 0 else 2 ^ 17)

/-- 43_esai.md R334: a read of SAISR of either kind returns TFS, TUE and TDE at bits 13, 14 and 15 with every other bit 0, and
sets the status-read flag; nothing else changes. -/
def Obligations.SaisrReadSetsStatusRead : Prop :=
  ∀ (s : State) (k : Kind), s.Mapped →
    ∃ w : Word, exec (.readSaisr k) s = doneWord w { s with esai := { s.esai with stRead := true } } ∧
      w.toNat = s.esai.tfs.toNat * 2 ^ 13 + s.esai.tue.toNat * 2 ^ 14 + s.esai.tde.toNat * 2 ^ 15

/-- 43_esai.md R332: a read of RXc of either kind returns the captured word while channel c is enabled, else 0 with a log event;
it consumes nothing. -/
def Obligations.RxReadIsGated : Prop :=
  ∀ (s : State) (k : Kind), s.Mapped →
    exec (.readRx0 k) s = rxRead 0 s ∧ exec (.readRx1 k) s = rxRead 1 s ∧
    exec (.readRx2 k) s = rxRead 2 s ∧ exec (.readRx3 k) s = rxRead 3 s

/-- 43_esai.md R330: a write of TXc keeps the word, marks the channel and, when it completes the enabled set, clears TDE and,
if SAISR was read, TUE; a write to a disabled channel changes nothing but the log. -/
def Obligations.TxWriteCompletesTheSet : Prop :=
  ∀ (s : State) (v : Nat), s.Mapped →
    exec (.writeTx0 v) s = doneUnit (txWritten 0 v s) ∧ exec (.writeTx1 v) s = doneUnit (txWritten 1 v s) ∧
    exec (.writeTx2 v) s = doneUnit (txWritten 2 v s) ∧ exec (.writeTx3 v) s = doneUnit (txWritten 3 v s) ∧
    exec (.writeTx4 v) s = doneUnit (txWritten 4 v s) ∧ exec (.writeTx5 v) s = doneUnit (txWritten 5 v s)

/-- 44_shi.md R384: an ordinary read of HRX pops the oldest word; on an empty open queue E holds; on a shut queue E aborts.
Nothing else changes, the pending counts among it. -/
def Obligations.HrxOrdinaryReadPops : Prop :=
  ∀ s : State, s.Mapped →
    (∀ w ws, s.shi.rxq = { items := w :: ws, shut := false } →
      exec .readHrx s = doneWord w { s with shi := { s.shi with rxq := { items := ws, shut := false } } }) ∧
    (s.shi.rxq = { items := [], shut := false } →
      exec .readHrx s = .next { s with e := { s.e with held := some (.queue .hrxRead .bare) } }) ∧
    (s.shi.rxq.shut = true →
      exec .readHrx s = .next (State.reply .e .abort { s with e := { s.e with status := .aborted } }))

/-- 44_shi.md R385: a bit-test read of HRX returns the oldest word and changes nothing, whether or not the queue is shut; on an
empty queue it faults. -/
def Obligations.HrxBitTestPeeks : Prop :=
  ∀ s : State, s.Mapped →
    (∀ w ws, s.shi.rxq.items = w :: ws → exec .readBtHrx s = doneWord w s) ∧
    (s.shi.rxq.items = [] → exec .readBtHrx s = .fault .peekEmpty)

/-- 44_shi.md R386: a bus write of HRX pushes the truncated word and counts it iff HEN = 1 and HRIE is not 0; on a full queue E
holds and on a shut queue E aborts, with nothing pushed or counted. -/
def Obligations.HrxWriteContract : Prop :=
  ∀ (s : State) (v : Nat), s.Mapped →
    (s.shi.rxq.shut = false → s.shi.rxq.items.length < 8192 →
      exec (.writeHrx v) s = doneUnit { s with shi := { s.shi with
        rxq := { items := s.shi.rxq.items ++ [BitVec.ofNat 24 v], shut := false }, pendRx := rxCounted s } }) ∧
    (s.shi.rxq.shut = false → 8192 ≤ s.shi.rxq.items.length →
      exec (.writeHrx v) s =
        .next { s with e := { s.e with held := some (.queue (.hrxWrite (BitVec.ofNat 24 v)) .bare) } }) ∧
    (s.shi.rxq.shut = true →
      exec (.writeHrx v) s = .next (State.reply .e .abort { s with e := { s.e with status := .aborted } }))

/-- 44_shi.md R387: a write of HTX pushes the truncated word and always counts it; on a full queue E holds and on a shut queue E
aborts, with nothing pushed or counted. -/
def Obligations.HtxWriteCounts : Prop :=
  ∀ (s : State) (v : Nat), s.Mapped →
    (s.shi.txq.shut = false → s.shi.txq.items.length < 8192 →
      exec (.writeHtx v) s = doneUnit { s with shi := { s.shi with
        txq := { items := s.shi.txq.items ++ [BitVec.ofNat 24 v], shut := false }, pendTx := s.shi.pendTx + 1 } }) ∧
    (s.shi.txq.shut = false → 8192 ≤ s.shi.txq.items.length →
      exec (.writeHtx v) s =
        .next { s with e := { s.e with held := some (.queue (.htxWrite (BitVec.ofNat 24 v)) .bare) } }) ∧
    (s.shi.txq.shut = true →
      exec (.writeHtx v) s = .next (State.reply .e .abort { s with e := { s.e with status := .aborted } }))

/-! ### The backing memory and the map -/

/-- 20_memory.md R104: a bus read of an unmapped offset returns the stored word where it is in range, else 0; it logs, and changes
nothing else. -/
def Obligations.BackingRead : Prop :=
  ∀ (s : State) (a : Area) (k : Kind) (off : Word), s.Mapped → regAt a off = none →
    (off.toNat < s.cfg.backingWords →
      exec (.readBacking a k off) s = doneWord (s.backing a off) (logged (.memRead a off (s.backing a off)) s)) ∧
    (s.cfg.backingWords ≤ off.toNat →
      exec (.readBacking a k off) s = doneWord 0 (logged (.outOfBounds a off) s))

/-- 20_memory.md R105, R107, 41_bus.md R234, R235: a bus write of an unmapped offset in range stores the truncated word at that
offset of that area and at no other, and logs; out of range it only logs. Every other part of the state is unchanged. -/
def Obligations.BackingWrite : Prop :=
  ∀ (s : State) (a : Area) (off : Word) (v : Nat), s.Mapped → regAt a off = none →
    (off.toNat < s.cfg.backingWords →
      ∃ t : State, exec (.writeBacking a off v) s = doneUnit t ∧
        (∀ a' off', t.backing a' off' = if a' = a ∧ off' = off then BitVec.ofNat 24 v else s.backing a' off') ∧
        t.hist = s.hist ++ [.log (.memWrite a off (BitVec.ofNat 24 v))] ∧
        t.bus.map = s.bus.map ∧ t.bus.bound = s.bus.bound ∧ t.cfg = s.cfg ∧ t.shi = s.shi ∧ t.esai = s.esai ∧
        t.embc = s.embc ∧ t.dbg = s.dbg ∧ t.e = s.e ∧ t.hosts = s.hosts ∧ t.replies = s.replies ∧ t.core = s.core ∧
        t.sched = s.sched ∧ t.issuer = s.issuer) ∧
    (s.cfg.backingWords ≤ off.toNat →
      exec (.writeBacking a off v) s = doneUnit (logged (.outOfBounds a off) s))

/-! ### EXEC, RESET, TERMINATE -/

/-- 41_bus.md R230, R231: registration of the five peripherals in any order gives the documented map of 25 distinct pairs and
logs no hazard; a registration at a taken pair replaces the earlier register and logs a ConfigurationHazard, and at a free pair it
logs nothing. -/
def Obligations.RegistrationGivesTheMap : Prop :=
  (∀ o : PeriphOrder, (periphList o).Perm [.cgm, .shi, .esai, .ccm, .chid] ∧
    construction (periphList o) = (regTable, [])) ∧
  regTable.length = 25 ∧ (regTable.map Prod.fst).Nodup ∧
  (∀ (m : List ((Area × Word) × Reg)) (h : List Event) (p : Area × Word) (r : Reg),
    (registerPair (m, h) (p, r)).1.lookup p = some r ∧
    (registerPair (m, h) (p, r)).2 =
      h ++ (if (m.lookup p).isSome then [.log (.configurationHazard p.1 p.2)] else []))

/-- 41_bus.md R237: RESET binds the engine to the core and changes nothing else. -/
def Obligations.ResetOnlyBinds : Prop :=
  ∀ s : State, exec .reset s = doneUnit { s with bus := { s.bus with bound := true } }

/-- 41_bus.md R238: TERMINATE shuts all twelve queues, keeps their words, and changes nothing else. -/
def Obligations.TerminateShutsEveryQueue : Prop :=
  ∀ s : State, ∃ t : State, exec .terminate s = .next (t.reply s.issuer (.done .unit)) ∧
    (∀ id, t.queue id = { items := (s.queue id).items, shut := true }) ∧
    t.shi = { s.shi with rxq := t.shi.rxq, txq := t.shi.txq } ∧
    t.esai = { s.esai with outq := t.esai.outq, inq := t.esai.inq } ∧
    t = { s with shi := t.shi, esai := t.esai }

/-- 60_exceptions.md R533: the faults of a well-formed transaction are exactly these: UnboundCore by EXEC, DSTEP and BOOT before
the first RESET, and PeekEmpty by a bit-test read of an empty HRX, alone or as an access of the instruction that a DSTEP executes; no
transaction raises BitFieldTestRange, and none with a meaning is refused. A DSTEP faults with PeekEmpty only if its instruction makes
such a read, and does so when the instruction comes to one, its earlier accesses done, with rxq empty. What the instruction does is
an input (DESIGN CHOICE, log 5). -/
def Obligations.FaultsAreExactlyThese : Prop :=
  (∀ (s : State) (i : Instr), s.Mapped → i.wf = true →
    (exec i s = .fault .unboundCore ↔ s.bus.bound = false ∧ (i = .exec ∨ i = .dstep ∨ i = .boot)) ∧
    (exec i s = .fault .peekEmpty →
      (i = .dstep ∧ .read .x 0x94#24 .bitTest ∈ s.core.next.txns) ∨ (i = .readBtHrx ∧ s.shi.rxq.items = [])) ∧
    (i = .readBtHrx → s.shi.rxq.items = [] → exec i s = .fault .peekEmpty) ∧
    exec i s ≠ .fault .bitFieldTestRange ∧ ∀ r, exec i s ≠ .refused r) ∧
  (∀ (s u : State) (rem : Option Nat) (done rest : List BusTxn), s.Mapped → s.bus.bound = true →
    s.e = { status := .live, held := none } → s.dbg.mode = .running rem → BitVec.ofNat 24 s.core.pc ∉ s.dbg.bps →
    s.core.next.txns = done ++ .read .x 0x94#24 .bitTest :: rest → accesses done s = some u → u.shi.rxq.items = [] →
    exec .dstep s = .fault .peekEmpty)

/-- 44_shi.md R380, R381, R382: an EXEC with no output channel enabled delivers at most one SHI interrupt, RX before TX, and
changes nothing but the SHI count it delivers from and `hist`. -/
def Obligations.ExecDeliversShi : Prop :=
  ∀ s : State, s.bus.bound = true → te s = 0#6 →
    exec .exec s = doneUnit { s with shi := shiTicked s, hist := s.hist ++ shiRequests s }

/-- 43_esai.md R310 steps 2 and 3, R312: an EXEC whose accumulator stays below CPS takes the elapsed cycles, modulo 2^CYC_W, and
the snapshot, and the ESAI does nothing more; the SHI acts as in every EXEC. -/
def Obligations.ExecBelowPeriodOnlyAccumulates : Prop :=
  ∀ s : State, s.bus.bound = true → te s ≠ 0#6 → s.esai.acc + elapsedNow s < s.cfg.cps →
    exec .exec s = doneUnit { s with
      shi := shiTicked s
      hist := s.hist ++ shiRequests s
      esai := { s.esai with
        acc := s.esai.acc + elapsedNow s
        snap := s.core.counter % 2 ^ s.cfg.cycW } }

/-- 43_esai.md R310, R313, R314, R315, R316, R319: an EXEC whose accumulator reaches CPS, with the enabled queues open and the
enabled output queues not full, is one transfer tick: every enabled output queue gets its channel's last word, every enabled
input channel takes its queue's oldest word or 0, TFS toggles, TUE and TDE are set, the written mask and the status-read flag
are cleared, CPS is taken off the accumulator, and the interrupts follow TIE and TLIE; the rest of the state is as before but
for the SHI tick. The two peripherals' requests stand in registration order (41_bus.md R236, 60_exceptions.md R539 (a)). -/
def Obligations.ExecTransferTick : Prop :=
  ∀ s : State, s.bus.bound = true → te s ≠ 0#6 → s.cfg.cps ≤ s.esai.acc + elapsedNow s → s.OutputsReady → s.InputsOpen →
    ∃ t : State, exec .exec s = doneUnit t ∧
      (∀ c : Fin 6, t.esai.outq[c] = if s.esai.tcr.getLsbD c.val then
        { items := s.esai.outq[c].items ++ [s.esai.txw[c]], shut := false } else s.esai.outq[c]) ∧
      (∀ c : Fin 4, t.esai.inq[c] = if s.esai.rcr.getLsbD c.val then
        { items := s.esai.inq[c].items.tail, shut := false } else s.esai.inq[c]) ∧
      (∀ c : Fin 4, t.esai.rxw[c] = if s.esai.rcr.getLsbD c.val then s.esai.inq[c].items.headD 0 else s.esai.rxw[c]) ∧
      t.esai = { s.esai with
        outq := t.esai.outq
        inq := t.esai.inq
        rxw := t.esai.rxw
        acc := s.esai.acc + elapsedNow s - s.cfg.cps
        snap := s.core.counter % 2 ^ s.cfg.cycW
        tfs := !s.esai.tfs
        tue := true
        tde := true
        wmask := 0#6
        stRead := false } ∧
      t.hist = s.hist ++ (if shiFirst s.cfg.order then shiRequests s ++ esaiRequests s
        else esaiRequests s ++ shiRequests s) ∧
      t = { s with shi := shiTicked s, esai := t.esai, hist := t.hist }

/-- 43_esai.md R314, 41_bus.md R236, R240: an EXEC whose transfer tick comes to an enabled output channel with a full open queue
holds there, and one that comes to an enabled channel with a shut queue aborts there: the lower channels' words are pushed and CPS
is taken off, and steps 4b to 7 are not done. The SHI has had its tick if it was registered before the ESAI, and not else; a hold
keeps the peripherals registered after the ESAI (log 4); nothing else changes. -/
def Obligations.ExecHoldsOrAbortsAtOutput : Prop :=
  ∀ (s : State) (c : Fin 6), s.bus.bound = true → s.cfg.cps ≤ s.esai.acc + elapsedNow s →
    s.esai.tcr.getLsbD c.val = true →
    (∀ d : Fin 6, d < c → s.esai.tcr.getLsbD d.val = true →
      s.esai.outq[d].shut = false ∧ s.esai.outq[d].items.length < 8192) →
    (s.esai.outq[c].shut = true ∨ 8192 ≤ s.esai.outq[c].items.length) →
    ∃ t : State, exec .exec s = .next t ∧
      (s.esai.outq[c].shut = false →
        t.e = { s.e with held := some (.queue (.esaiOut c (afterEsai s.cfg.order)) .bare) } ∧ t.replies = s.replies) ∧
      (s.esai.outq[c].shut = true →
        t.e = { s.e with status := .aborted } ∧ t.replies = s.replies ++ [⟨.e, .abort⟩]) ∧
      (∀ d : Fin 6, t.esai.outq[d] = if d < c ∧ s.esai.tcr.getLsbD d.val = true then
        { items := s.esai.outq[d].items ++ [s.esai.txw[d]], shut := false } else s.esai.outq[d]) ∧
      t.esai = { s.esai with
        outq := t.esai.outq
        acc := s.esai.acc + elapsedNow s - s.cfg.cps
        snap := s.core.counter % 2 ^ s.cfg.cycW } ∧
      t.shi = (if shiFirst s.cfg.order then shiTicked s else s.shi) ∧
      t.hist = s.hist ++ (if shiFirst s.cfg.order then shiRequests s else []) ∧
      t = { s with esai := t.esai, shi := t.shi, hist := t.hist, e := t.e, replies := t.replies }

/-- 43_esai.md R315, 41_bus.md R236, R240: an EXEC whose transfer tick comes to an enabled input channel with a shut queue aborts
there: the output words are pushed, the lower input channels are captured, and steps 5 to 7 are not done. The SHI has had its tick if
it was registered before the ESAI, and not else; nothing else changes. -/
def Obligations.ExecAbortsAtShutInput : Prop :=
  ∀ (s : State) (c : Fin 4), s.bus.bound = true → te s ≠ 0#6 → s.cfg.cps ≤ s.esai.acc + elapsedNow s → s.OutputsReady →
    s.esai.rcr.getLsbD c.val = true → s.esai.inq[c].shut = true →
    (∀ d : Fin 4, d < c → s.esai.rcr.getLsbD d.val = true → s.esai.inq[d].shut = false) →
    ∃ t : State, exec .exec s = .next t ∧ t.e = { s.e with status := .aborted } ∧
      t.replies = s.replies ++ [⟨.e, .abort⟩] ∧
      (∀ d : Fin 6, t.esai.outq[d] = if s.esai.tcr.getLsbD d.val then
        { items := s.esai.outq[d].items ++ [s.esai.txw[d]], shut := false } else s.esai.outq[d]) ∧
      (∀ d : Fin 4, t.esai.inq[d] = if d < c ∧ s.esai.rcr.getLsbD d.val = true then
        { items := s.esai.inq[d].items.tail, shut := false } else s.esai.inq[d]) ∧
      (∀ d : Fin 4, t.esai.rxw[d] = if d < c ∧ s.esai.rcr.getLsbD d.val = true then s.esai.inq[d].items.headD 0
        else s.esai.rxw[d]) ∧
      t.esai = { s.esai with
        outq := t.esai.outq
        inq := t.esai.inq
        rxw := t.esai.rxw
        acc := s.esai.acc + elapsedNow s - s.cfg.cps
        snap := s.core.counter % 2 ^ s.cfg.cycW } ∧
      t.shi = (if shiFirst s.cfg.order then shiTicked s else s.shi) ∧
      t.hist = s.hist ++ (if shiFirst s.cfg.order then shiRequests s else []) ∧
      t = { s with esai := t.esai, shi := t.shi, hist := t.hist, e := t.e, replies := t.replies }

/-- 60_exceptions.md R539 (d): one EXEC appends at most three events, all of them interrupt requests. -/
def Obligations.ExecRequestsAtMostThree : Prop :=
  ∀ s t : State, exec .exec s = .next t →
    ∃ evs : List Event, t.hist = s.hist ++ evs ∧ evs.length ≤ 3 ∧ injectCount evs = evs.length

/-- 43_esai.md R346: while channel i is disabled a write of TXi changes nothing but the log, and no EXEC touches its output
queue or its word. -/
def Obligations.DisabledChannelGetsNothing : Prop :=
  ∀ (s : State) (c : Fin 6), s.esai.tcr.getLsbD c.val = false →
    (∀ v t, s.Mapped → exec (decodeWrite .x (0xA0#24 + BitVec.ofNat 24 c.val) v) s = .next t →
      t = State.doneE .unit (logged (.disabledChannel (.tx c)) s)) ∧
    (∀ t, exec .exec s = .next t → t.esai.outq[c] = s.esai.outq[c] ∧ t.esai.txw[c] = s.esai.txw[c])

/-- 44_shi.md R383: an EXEC, whether it ends, holds or aborts, lowers `pendRx` by at most 1 and only while HEN = 1 and HRIE is not 0,
lowers `pendTx` by at most 1 and only while HEN = 1 and HTIE = 1, and never both; it leaves the rest of the SHI as it is. -/
def Obligations.PendingCountersFallByOne : Prop :=
  ∀ s t : State, exec .exec s = .next t →
    (t.shi.pendRx = s.shi.pendRx ∨ (t.shi.pendRx + 1 = s.shi.pendRx ∧ hen s = true ∧ hrie s ≠ 0#2)) ∧
    (t.shi.pendTx = s.shi.pendTx ∨ (t.shi.pendTx + 1 = s.shi.pendTx ∧ hen s = true ∧ htie s = true)) ∧
    (t.shi.pendRx = s.shi.pendRx ∨ t.shi.pendTx = s.shi.pendTx) ∧
    t.shi = { s.shi with pendRx := t.shi.pendRx, pendTx := t.shi.pendTx }

/-- 43_esai.md R348: over any run of EXECs with TE fixed and not empty, the accumulator and the elapsed cycles account for the
transfer ticks: A + E = T * CPS + F, each tick pushing one word to every enabled output queue and toggling TFS. If CPS is at least
1, the accumulator starts below it and no EXEC adds more than it, the accumulator ends below it. -/
def Obligations.AccumulatorConserved : Prop :=
  ∀ (s t : State) (ds : List Nat), s.bus.bound = true → te s ≠ 0#6 → s.esai.snap = s.core.counter % 2 ^ s.cfg.cycW →
    (∀ d ∈ ds, d < 2 ^ s.cfg.cycW) → s.e = { status := .live, held := none } → feed ds s = some t →
    ∃ ticks : Nat, s.esai.acc + ds.sum = ticks * s.cfg.cps + t.esai.acc ∧
      (∀ c : Fin 6, s.esai.tcr.getLsbD c.val = true →
        t.esai.outq[c].items = s.esai.outq[c].items ++ List.replicate ticks s.esai.txw[c]) ∧
      t.esai.tfs = (s.esai.tfs ^^ decide (ticks % 2 = 1)) ∧
      (1 ≤ s.cfg.cps → s.esai.acc < s.cfg.cps → (∀ d ∈ ds, d ≤ s.cfg.cps) →
        t.esai.acc < s.cfg.cps ∧ ticks = (s.esai.acc + ds.sum) / s.cfg.cps)

/-- 43_esai.md R347: with CPS = C at least 1, acc = 0 and the snapshot at the counter, EXECs that feed exactly k * C cycles, each at
most C, end and make exactly k ticks: k words are pushed to each enabled output queue and TFS toggles k times. The queues are open
and the output queues have room for k words, so that no push holds. -/
def Obligations.PacingIsExact : Prop :=
  ∀ (s : State) (ds : List Nat) (k : Nat), s.bus.bound = true → te s ≠ 0#6 → 1 ≤ s.cfg.cps → s.esai.acc = 0 →
    s.esai.snap = s.core.counter % 2 ^ s.cfg.cycW → (∀ d ∈ ds, d ≤ s.cfg.cps ∧ d < 2 ^ s.cfg.cycW) →
    ds.sum = k * s.cfg.cps → s.e = { status := .live, held := none } → s.InputsOpen →
    (∀ c : Fin 6, s.esai.tcr.getLsbD c.val = true →
      s.esai.outq[c].shut = false ∧ s.esai.outq[c].items.length + k ≤ 8192) →
    ∃ t : State, feed ds s = some t ∧ t.esai.acc = 0 ∧ t.esai.tfs = (s.esai.tfs ^^ decide (k % 2 = 1)) ∧
      ∀ c : Fin 6, t.esai.outq[c] = if s.esai.tcr.getLsbD c.val then
        { items := s.esai.outq[c].items ++ List.replicate k s.esai.txw[c], shut := false } else s.esai.outq[c]

/-! ### Host streams -/

/-- 47_host_streams.md R501: a host push to SHI_RX pushes the truncated word and counts it iff HEN = 1 and HRIE is not 0; on a
full queue the host holds; on a shut queue it ends in end-of-stream and nothing is counted. -/
def Obligations.HostPushShiRx : Prop :=
  ∀ (s : State) (v : Nat),
    (s.shi.rxq.shut = false → s.shi.rxq.items.length < 8192 →
      exec (.hpushShiRx v) s = .next (State.reply s.issuer (.done .unit) { s with shi := { s.shi with
        rxq := { items := s.shi.rxq.items ++ [BitVec.ofNat 24 v], shut := false }, pendRx := rxCounted s } })) ∧
    (s.shi.rxq.shut = false → 8192 ≤ s.shi.rxq.items.length →
      exec (.hpushShiRx v) s = .next { s with hosts := s.hosts ++ [(s.issuer, .push .shiRx (BitVec.ofNat 24 v))] }) ∧
    (s.shi.rxq.shut = true → exec (.hpushShiRx v) s = .next (s.reply s.issuer (.done .endOfStream)))

/-- 47_host_streams.md R503: a host push to ESAI_IN<c>, c at most 3, pushes the truncated word to that channel's queue and to no
other; on a full queue the host holds; on a shut queue it ends in end-of-stream. -/
def Obligations.HostPushEsaiIn : Prop :=
  ∀ (s : State) (v : Nat) (c : Fin 4) (i : Instr),
    ((c = 0 ∧ i = .hpushEsaiIn0 v) ∨ (c = 1 ∧ i = .hpushEsaiIn1 v) ∨ (c = 2 ∧ i = .hpushEsaiIn2 v) ∨
      (c = 3 ∧ i = .hpushEsaiIn3 v)) →
    (s.esai.inq[c].shut = false → s.esai.inq[c].items.length < 8192 →
      exec i s = .next (State.reply s.issuer (.done .unit) { s with esai := { s.esai with
        inq := s.esai.inq.set c { items := s.esai.inq[c].items ++ [BitVec.ofNat 24 v], shut := false } } })) ∧
    (s.esai.inq[c].shut = false → 8192 ≤ s.esai.inq[c].items.length →
      exec i s = .next { s with hosts := s.hosts ++ [(s.issuer, .push (.inp c) (BitVec.ofNat 24 v))] }) ∧
    (s.esai.inq[c].shut = true → exec i s = .next (s.reply s.issuer (.done .endOfStream)))

/-- 47_host_streams.md R502: a host pop from SHI_TX returns the oldest word and leaves `pendTx` as it is; on an empty queue the host
holds; on a shut queue it ends in end-of-stream. -/
def Obligations.HostPopShiTx : Prop :=
  ∀ s : State,
    (∀ w ws, s.shi.txq = { items := w :: ws, shut := false } →
      exec .hpopShiTx s = .next (State.reply s.issuer (.done (.word w))
        { s with shi := { s.shi with txq := { items := ws, shut := false } } })) ∧
    (s.shi.txq = { items := [], shut := false } →
      exec .hpopShiTx s = .next { s with hosts := s.hosts ++ [(s.issuer, .pop .shiTx)] }) ∧
    (s.shi.txq.shut = true → exec .hpopShiTx s = .next (s.reply s.issuer (.done .endOfStream)))

/-- 47_host_streams.md R504: a host pop from ESAI_OUT<c>, c at most 5, returns that channel's oldest word; on an empty queue the
host holds; on a shut queue it ends in end-of-stream. -/
def Obligations.HostPopEsaiOut : Prop :=
  ∀ (s : State) (c : Fin 6) (i : Instr),
    ((c = 0 ∧ i = .hpopEsaiOut0) ∨ (c = 1 ∧ i = .hpopEsaiOut1) ∨ (c = 2 ∧ i = .hpopEsaiOut2) ∨
      (c = 3 ∧ i = .hpopEsaiOut3) ∨ (c = 4 ∧ i = .hpopEsaiOut4) ∨ (c = 5 ∧ i = .hpopEsaiOut5)) →
    (∀ w ws, s.esai.outq[c] = { items := w :: ws, shut := false } →
      exec i s = .next (State.reply s.issuer (.done (.word w))
        { s with esai := { s.esai with outq := s.esai.outq.set c { items := ws, shut := false } } })) ∧
    (s.esai.outq[c] = { items := [], shut := false } →
      exec i s = .next { s with hosts := s.hosts ++ [(s.issuer, .pop (.out c))] }) ∧
    (s.esai.outq[c].shut = true → exec i s = .next (s.reply s.issuer (.done .endOfStream)))

/-- 47_host_streams.md R505: a host access to an ESAI channel out of range changes nothing and returns end-of-stream. -/
def Obligations.ChannelOutOfRangeIsNoOp : Prop :=
  ∀ (s : State) (c v : Nat),
    exec (.hpushEsaiIn4to7 c v) s = .next (s.reply s.issuer (.done .endOfStream)) ∧
    exec (.hpushEsaiIn8to15 c v) s = .next (s.reply s.issuer (.done .endOfStream)) ∧
    exec (.hpopEsaiOut6to7 c) s = .next (s.reply s.issuer (.done .endOfStream)) ∧
    exec (.hpopEsaiOut8to15 c) s = .next (s.reply s.issuer (.done .endOfStream))

/-- 42_queue.md R278: over any interleaving of pushes and pops on an open queue the words popped, followed by the words still in
the queue, are the words that were in it followed by the words pushed: none is lost, doubled or put out of order; and the queue
holds at most 8192 words throughout. -/
def Obligations.QueueIsFifo : Prop :=
  ∀ (q : Queue) (ops : List QueueOp), q.shut = false → q.items.length ≤ 8192 →
    (queueRun ops q [] []).2.2 ++ (queueRun ops q [] []).1.items = q.items ++ (queueRun ops q [] []).2.1 ∧
    (queueRun ops q [] []).1.items.length ≤ 8192 ∧ (queueRun ops q [] []).1.shut = false

/-- 42_queue.md R279: after its shutdown every push, pop and try-pop on a queue fails at once; and no step of the machine opens a
shut queue again or delivers a word from it. -/
def Obligations.ShutdownIsPermanent : Prop :=
  (∀ (q : Queue) (v : Word), (q.shutdown.push v = .shut ∧ q.shutdown.pop = .shut ∧ q.shutdown.tryPop = none)) ∧
  (∀ (s t : State) (id : QId), step s = .next t → (s.queue id).shut = true →
    t.queue id = s.queue id)

/-- 70_reset_and_hazards.md R590, 45_debugger.md R438: the two transactions of TEARDOWN, issued by S, shut every queue and set the
debugger running; after them an E that was held at a queue ends in an abort, and a host that was held ends in end-of-stream. An E
that was held in the debugger wait is released: at a breakpoint its DSTEP is done and the debugger Stopped; elsewhere its instruction
runs and can hold nowhere: it is done, with the debugger Running(none), or a queue access in it ends in an abort, or it faults at a
bit-test read of HRX. Holds, the schedule and the core's instruction are the model's (DESIGN CHOICE, logs 3, 4 and 5). -/
def Obligations.TeardownReleasesEveryone : Prop :=
  ∀ (s : State) (rest : List Entry), s.sched = (pseudoExpand .teardown).map asmEntry ++ rest → s.hostFree .s = true →
    ∃ t u : State, step s = .next t ∧ step t = .next u ∧ u.sched = rest ∧ u.dbg = { s.dbg with mode := .running none } ∧
      (∀ id, u.queue id = { items := (s.queue id).items, shut := true }) ∧ u.e = s.e ∧ u.hosts = s.hosts ∧ u.core = s.core ∧
      (∀ p fr, s.e = { status := .live, held := some (.queue p fr) } →
        resume .e u = .next (State.reply .e .abort { u with e := { status := .aborted, held := none } })) ∧
      (∀ n op, u.hosts.lookup (.h n) = some op →
        resume (.h n) u = .next (State.reply (.h n) (.done .endOfStream)
          { u with hosts := u.hosts.filter (fun p => decide (p.1 ≠ .h n)) })) ∧
      (s.e = { status := .live, held := some .debugger } → BitVec.ofNat 24 s.core.pc ∈ s.dbg.bps →
        resume .e u = doneUnit { u with e := { status := .live, held := none }, dbg := { s.dbg with mode := .stopped } }) ∧
      (s.e = { status := .live, held := some .debugger } → BitVec.ofNat 24 s.core.pc ∉ s.dbg.bps → s.Mapped →
        (resume .e u = .fault .peekEmpty ∧ .read .x 0x94#24 .bitTest ∈ s.core.next.txns) ∨
        ∃ x, resume .e u = .next x ∧
          (x.e = { status := .aborted, held := none } ∨
            (x.e = { status := .live, held := none } ∧ x.dbg = { s.dbg with mode := .running none } ∧
              x.core = { s.core with counter := s.core.next.counter, pc := s.core.next.pc })))

/-! ### The debugger -/

/-- 45_debugger.md R431, R432: BKPT.SET adds its address to the breakpoint set and BKPT.DEL takes it out; neither changes anything
else. -/
def Obligations.BreakpointSetAndDelete : Prop :=
  ∀ (s : State) (a : Word),
    (∃ l, exec (.bkptSet a) s = .next (State.reply s.issuer (.done .unit) { s with dbg := { s.dbg with bps := l } }) ∧
      (∀ b, b ∈ l ↔ b = a ∨ b ∈ s.dbg.bps)) ∧
    (∃ l, exec (.bkptDel a) s = .next (State.reply s.issuer (.done .unit) { s with dbg := { s.dbg with bps := l } }) ∧
      (∀ b, b ∈ l ↔ b ≠ a ∧ b ∈ s.dbg.bps))

/-- 45_debugger.md R433: CONT n sets Running(none) for n = 0 and Running(some n) for n at least 1, in every state of the debugger,
and changes nothing else. -/
def Obligations.ContinueSetsMode : Prop :=
  ∀ (s : State) (n : Nat),
    exec (.cont n) s = .next (State.reply s.issuer (.done .unit)
      { s with dbg := { s.dbg with mode := if n = 0 then .running none else .running (some n) } })

/-- 45_debugger.md R434: a DSTEP of a bound engine holds while the debugger is Stopped, and at a breakpoint becomes Stopped without
executing the instruction, whatever the count. -/
def Obligations.DstepHoldsAndStops : Prop :=
  ∀ s : State, s.bus.bound = true →
    (s.dbg.mode = .stopped → exec .dstep s = .next { s with e := { s.e with held := some .debugger } }) ∧
    (∀ rem, s.dbg.mode = .running rem → BitVec.ofNat 24 s.core.pc ∈ s.dbg.bps →
      exec .dstep s = doneUnit { s with dbg := { s.dbg with mode := .stopped } })

/-- 45_debugger.md R434, 60_exceptions.md R545, R546: a DSTEP that meets no breakpoint executes the core's instruction: its bus
accesses in order, whatever they are and also if there are none, then one EXEC with the counter and the program counter that the
instruction leaves; then the count falls by one, and at zero the debugger is Stopped. The first clause is for every instruction
whose accesses and EXEC end; the second has all of its hypotheses on the state: a write and a read of EMBC, and an EXEC with nothing
enabled. What the engine sees of the core is an input (log 5), and the inner transactions' endings are recorded (log 6). -/
def Obligations.DstepExecutesOneInstruction : Prop :=
  (∀ (s u w : State) (rem : Option Nat), s.bus.bound = true → s.e = { status := .live, held := none } →
    s.dbg.mode = .running rem → rem ≠ some 0 → BitVec.ofNat 24 s.core.pc ∉ s.dbg.bps →
    accesses s.core.next.txns s = some u →
    exec .exec { u with core := { u.core with counter := s.core.next.counter, pc := s.core.next.pc } } = .next w →
    w.e = u.e →
    exec .dstep s = doneUnit { w with dbg := { s.dbg with mode := countedDown rem } }) ∧
  (∀ (s : State) (rem : Option Nat) (v : Nat) (k : Kind), s.Mapped → s.bus.bound = true → te s = 0#6 → hen s = false →
    s.dbg.mode = .running rem → rem ≠ some 0 → BitVec.ofNat 24 s.core.pc ∉ s.dbg.bps →
    s.core.next.txns = [.write .y 0xE6#24 v, .read .y 0xE6#24 k] →
    exec .dstep s = .next { s with
      embc := BitVec.ofNat 24 v
      core := { s.core with counter := s.core.next.counter, pc := s.core.next.pc }
      dbg := { s.dbg with mode := countedDown rem }
      replies := s.replies ++ [⟨.e, .done .unit⟩, ⟨.e, .done (.word (BitVec.ofNat 24 v))⟩, ⟨.e, .done .unit⟩,
        ⟨.e, .done .unit⟩] })

/-- 45_debugger.md R435, R437: at a breakpoint every CONT n followed by a DSTEP leaves the debugger Stopped with no instruction
executed, however often; so a breakpoint set at A before the core's PC reaches A stops E before the instruction at A. -/
def Obligations.NoStepOver : Prop :=
  ∀ (s : State) (n : Nat) (a : Word), s.bus.bound = true → BitVec.ofNat 24 s.core.pc = a →
    (a ∈ s.dbg.bps → ∃ t, exec (.cont n) s = .next t ∧
      exec .dstep t = doneUnit { t with dbg := { s.dbg with mode := .stopped } }) ∧
    (∃ t u, exec (.bkptSet a) s = .next t ∧ exec (.cont 0) t = .next u ∧
      exec .dstep u = doneUnit { u with dbg := { u.dbg with mode := .stopped } })

/-- 45_debugger.md R436: after CONT n, n at least 1, DSTEPs that meet no breakpoint and do not abort or hold execute, whatever their
instructions do on the bus, and leave n minus their number to go; after n of them the debugger is Stopped and a further DSTEP
holds. -/
def Obligations.CountedRunLaw : Prop :=
  ∀ (s s1 t : State) (n : Nat) (vs : List CoreView), 1 ≤ n → s.bus.bound = true → s.e = { status := .live, held := none } →
    exec (.cont n) s = .next s1 → vs.length ≤ n → (∀ v ∈ vs, BitVec.ofNat 24 v.pc ∉ s.dbg.bps) →
    dsteps vs s1 = some t →
    t.dbg.bps = s.dbg.bps ∧
    t.dbg.mode = (if vs.length = n then .stopped else .running (some (n - vs.length))) ∧
    (vs.length = n → ∀ v, exec .dstep { t with core := v } =
      .next { t with core := v, e := { t.e with held := some .debugger } })

/-! ### The boot pattern -/

/-- 47_host_streams.md R507: with a count n, an address a and n words in an open rxq, BOOT pops them, writes word i to program
address (a + i) mod 2^24, sets the PC to a last, and changes nothing else. -/
def Obligations.BootLoadsAndStarts : Prop :=
  ∀ (s : State) (n a : Word) (ws rest : List Word), s.bus.bound = true → ws.length = n.toNat →
    s.shi.rxq = { items := n :: a :: (ws ++ rest), shut := false } →
    exec .boot s = doneUnit { s with
      shi := { s.shi with rxq := { items := rest, shut := false } }
      hist := s.hist ++ bootWrites a ws ++ [.setPc a]
      core := { s.core with pc := a.toNat } }

/-- 47_host_streams.md R507: with too few words BOOT holds with the words it has already written in place; a shutdown then aborts it
and the PC is not set. -/
def Obligations.BootHoldsForMissingWords : Prop :=
  ∀ (s : State) (n a : Word) (ws : List Word), s.bus.bound = true → ws.length < n.toNat →
    s.e = { status := .live, held := none } → s.shi.rxq = { items := n :: a :: ws, shut := false } →
    ∃ t u x : State, exec .boot s = .next t ∧
      t = { s with
        shi := { s.shi with rxq := { items := [], shut := false } }
        hist := s.hist ++ bootWrites a ws
        e := { status := .live, held := some (.queue
          (.bootWord a (a + BitVec.ofNat 24 ws.length) (n.toNat - ws.length - 1)) .bare) } } ∧
      exec .terminate { t with issuer := .s } = .next u ∧ resume .e u = .next x ∧
      x.e.status = .aborted ∧ x.hist = t.hist ∧ x.core = s.core

/-! ### BitField views -/

/-- 40_bitfield.md R209: for well-formed fields, a merge is read back, leaves disjoint fields alone, and merging what a field holds
changes nothing. -/
def Obligations.BitFieldLaws : Prop :=
  ∀ (o w : Nat) (h : 1 ≤ w ∧ o + w ≤ 24) (x : Word) (f : Nat), f < 2 ^ w →
    packedView ⟨o, w, h⟩ (mergeView (subViewOfRaw ⟨o, w, h⟩ f) x) = f ∧
    (∀ d' : Desc, Desc.disjoint ⟨o, w, h⟩ d' = true →
      packedView d' (mergeView (subViewOfRaw ⟨o, w, h⟩ f) x) = packedView d' x) ∧
    mergeView (subViewOfWord ⟨o, w, h⟩ x) x = x

/-- 40_bitfield.md R204: the test of a Set view gives the word's bit at the offset plus the position where the position is below the
width, and faults elsewhere; the value is 0 iff every test below the width is false. A descriptor is well-formed by its type (R200). -/
def Obligations.SetViewTest : Prop :=
  ∀ (d : Desc) (x : Word) (pos : Nat),
    (pos < d.w → setTestChecked d pos x = .ok (x.getLsbD (d.o + pos))) ∧
    (d.w ≤ pos → setTestChecked d pos x = .error .bitFieldTestRange) ∧
    (packedView d x = 0 ↔ ∀ p, p < d.w → setTestChecked d p x = .ok false)

/-! ### Reset and invariants -/

/-- 10_state.md R58: the values the spec gives at construction. That `State.reset` is the construction state is the model's choice
(DESIGN CHOICE, log 1). -/
def Obligations.ConstructionValues : Prop :=
  State.reset.bus.map = regTable ∧ State.reset.bus.bound = false ∧
  (∀ a off, State.reset.backing a off = initialWord State.reset.cfg a off.toNat) ∧
  State.reset.shi.hcsr = 0 ∧ State.reset.shi.hckr = 0 ∧ State.reset.shi.hsar = 0 ∧
  State.reset.shi.pendRx = 0 ∧ State.reset.shi.pendTx = 0 ∧
  State.reset.esai.tcr = 0 ∧ State.reset.esai.rcr = 0 ∧ State.reset.esai.saicr = 0 ∧ State.reset.esai.tccr = 0 ∧
  State.reset.esai.rccr = 0 ∧ State.reset.esai.tfs = false ∧ State.reset.esai.tue = false ∧ State.reset.esai.tde = false ∧
  (∀ c : Fin 6, State.reset.esai.txw[c] = 0) ∧ (∀ c : Fin 4, State.reset.esai.rxw[c] = 0) ∧
  State.reset.esai.wmask = 0 ∧ State.reset.esai.stRead = false ∧ State.reset.esai.acc = 0 ∧ State.reset.esai.snap = 0 ∧
  (∀ id, State.reset.queue id = { items := [], shut := false }) ∧ State.reset.embc = 0 ∧
  State.reset.dbg.bps = [] ∧ State.reset.e.status = .live ∧ State.reset.hist = [] ∧
  (State.reset.dbg.mode = .stopped ∨ State.reset.dbg.mode = .running none)

/-- The invariant holds after reset. -/
def Obligations.ResetMeetsInv : Prop := State.reset.Inv

/-- The invariant is kept by every step, from every state that meets it. -/
def Obligations.StepKeepsInv : Prop :=
  ∀ s t : State, s.Inv → step s = .next t → t.Inv

/-- No step changes the parameters, the register map or what has been recorded: the history and the replies only grow; and once
bound the engine stays bound. -/
def Obligations.StepOnlyAppendsRecords : Prop :=
  ∀ s t : State, step s = .next t →
    t.cfg = s.cfg ∧ t.bus.map = s.bus.map ∧ (s.bus.bound = true → t.bus.bound = true) ∧
    (∃ evs, t.hist = s.hist ++ evs) ∧ (∃ rs, t.replies = s.replies ++ rs)

/-- 20_memory.md R113, 60_exceptions.md R544, 42_queue.md R280: a step of an agent other than E, or a move of the core, changes no
SHI or ESAI register, ESAI flag or word, EMBC, backing memory, register map, event history or state of E: of the SHI it may change
the queues and `pendRx`, of the ESAI the queues. The schedule is the model's (DESIGN CHOICE, log 3). -/
def Obligations.OtherAgentsTouchNoRegister : Prop :=
  ∀ (s t : State) (rest : List Entry) (ag : Agent) (code : Code) (operand : Nat) (v : CoreView),
    ag ≠ .e → (s.sched = .issue ag code operand :: rest ∨ s.sched = .resume ag :: rest ∨ s.sched = .core v :: rest) →
    step s = .next t →
    t.bus = s.bus ∧ t.embc = s.embc ∧ t.e = s.e ∧ t.hist = s.hist ∧ t.cfg = s.cfg ∧
    t.shi = { s.shi with rxq := t.shi.rxq, txq := t.shi.txq, pendRx := t.shi.pendRx } ∧
    t.esai = { s.esai with outq := t.esai.outq, inq := t.esai.inq }
end

