-- ==== Sys2Proof/Laws/Fields.lean ====
section
/-! SUPPORT. The fields of the control and status registers, as bits of the register. -/

namespace Sys2Proof.Machine

/-- A packed view is the bits from the offset on (40_bitfield.md R203). -/
theorem packedView_eq (d : Desc) (x : Word) : packedView d x = (x.extractLsb' d.o d.w).toNat := by
  simp [packedView, BitVec.extractLsb'_toNat, BitVec.toNat_ushiftRight]

/-- A position of a Set view within the width is a bit of the word (40_bitfield.md R204). -/
theorem setTest_eq (d : Desc) (pos : Nat) (x : Word) (h : pos < d.w) : setTest d pos x = x.getLsbD (d.o + pos) := by
  have : (packedView d x).testBit pos = (x.extractLsb' d.o d.w).getLsbD pos := by rw [packedView_eq]; rfl
  rw [setTest, this, BitVec.getLsbD_extractLsb']
  simp [h]

@[simp] theorem EsaiState.teTest_eq (es : EsaiState) (c : Fin 6) : es.teTest c = es.tcr.getLsbD c.val := by
  have := setTest_eq descTE c.val es.tcr c.isLt
  simpa [EsaiState.teTest, descTE] using this

@[simp] theorem EsaiState.reTest_eq (es : EsaiState) (c : Fin 4) : es.reTest c = es.rcr.getLsbD c.val := by
  have := setTest_eq descRE c.val es.rcr c.isLt
  simpa [EsaiState.reTest, descRE] using this

/-- The transmit enable set is the low six bits of TCR (10_state.md R39). -/
theorem EsaiState.te_eq (es : EsaiState) : es.te = (es.tcr.extractLsb' 0 6).toNat := packedView_eq descTE es.tcr

/-- The transmit enable set is empty when the low six bits of TCR are 0. -/
theorem EsaiState.te_eq_zero (es : EsaiState) : es.te = 0 ↔ es.tcr.extractLsb' 0 6 = 0#6 := by
  rw [EsaiState.te_eq, ← BitVec.toNat_inj]; simp

/-- The enabled channels have all been written, as a test on bits (43_esai.md R330). -/
theorem EsaiState.allWritten_eq (es : EsaiState) :
    es.allWritten = decide (es.wmask &&& es.tcr.extractLsb' 0 6 = es.tcr.extractLsb' 0 6) := by
  have : (es.wmask.toNat &&& es.te = es.te) ↔ (es.wmask &&& es.tcr.extractLsb' 0 6 = es.tcr.extractLsb' 0 6) := by
    rw [EsaiState.te_eq, ← BitVec.toNat_and, BitVec.toNat_inj]
  simp [EsaiState.allWritten, this]

@[simp] theorem EsaiState.tie_eq (es : EsaiState) : es.tie = es.tcr.getLsbD 22 := rfl
@[simp] theorem EsaiState.tlie_eq (es : EsaiState) : es.tlie = es.tcr.getLsbD 23 := rfl

@[simp] theorem ShiState.hen_eq (sh : ShiState) : sh.hen = sh.hcsr.getLsbD 0 := by
  simp [ShiState.hen, bitView, bitHEN, ShiState.hcsrWord]

@[simp] theorem ShiState.htie_eq (sh : ShiState) : sh.htie = sh.hcsr.getLsbD 11 := by
  simp [ShiState.htie, bitView, bitHTIE, ShiState.hcsrWord]

/-- The receive-interrupt mode is bits 13:12 of HCSR (10_state.md R34). -/
theorem ShiState.hrie_eq (sh : ShiState) : sh.hrie = (sh.hcsr.extractLsb' 12 2).toNat := by
  have h := sh.hcsr.isLt
  simp [ShiState.hrie, packedView_eq, descHRIE, ShiState.hcsrWord, BitVec.extractLsb'_toNat]
  omega

/-- The receive-interrupt mode as a number, and as two bits. -/
theorem ShiState.hrie_eq_iff (sh : ShiState) (n : Nat) (h : n < 4) :
    sh.hrie = n ↔ sh.hcsr.extractLsb' 12 2 = BitVec.ofNat 2 n := by
  rw [ShiState.hrie_eq, ← BitVec.toNat_inj]
  simp [Nat.mod_eq_of_lt h]

end Sys2Proof.Machine
end

