-- ==== Sys2Proof/Laws/State.lean ====
section
/-! SUPPORT. One lemma per field per update of the state, true by rfl; the queues after each update. -/

namespace Sys2Proof.Machine

@[simp] theorem State.event_cfg (s : State) (ev : Event) : (s.event ev).cfg = s.cfg := rfl
@[simp] theorem State.event_bus (s : State) (ev : Event) : (s.event ev).bus = s.bus := rfl
@[simp] theorem State.event_shi (s : State) (ev : Event) : (s.event ev).shi = s.shi := rfl
@[simp] theorem State.event_esai (s : State) (ev : Event) : (s.event ev).esai = s.esai := rfl
@[simp] theorem State.event_embc (s : State) (ev : Event) : (s.event ev).embc = s.embc := rfl
@[simp] theorem State.event_dbg (s : State) (ev : Event) : (s.event ev).dbg = s.dbg := rfl
@[simp] theorem State.event_e (s : State) (ev : Event) : (s.event ev).e = s.e := rfl
@[simp] theorem State.event_hosts (s : State) (ev : Event) : (s.event ev).hosts = s.hosts := rfl
@[simp] theorem State.event_hist (s : State) (ev : Event) : (s.event ev).hist = s.hist ++ [ev] := rfl
@[simp] theorem State.event_replies (s : State) (ev : Event) : (s.event ev).replies = s.replies := rfl
@[simp] theorem State.event_core (s : State) (ev : Event) : (s.event ev).core = s.core := rfl
@[simp] theorem State.event_sched (s : State) (ev : Event) : (s.event ev).sched = s.sched := rfl
@[simp] theorem State.event_issuer (s : State) (ev : Event) : (s.event ev).issuer = s.issuer := rfl
@[simp] theorem State.event_queue (s : State) (ev : Event) (id : QId) : (s.event ev).queue id = s.queue id := by cases id <;> rfl

@[simp] theorem State.log_cfg (s : State) (d : Diag) : (s.log d).cfg = s.cfg := rfl
@[simp] theorem State.log_bus (s : State) (d : Diag) : (s.log d).bus = s.bus := rfl
@[simp] theorem State.log_shi (s : State) (d : Diag) : (s.log d).shi = s.shi := rfl
@[simp] theorem State.log_esai (s : State) (d : Diag) : (s.log d).esai = s.esai := rfl
@[simp] theorem State.log_embc (s : State) (d : Diag) : (s.log d).embc = s.embc := rfl
@[simp] theorem State.log_dbg (s : State) (d : Diag) : (s.log d).dbg = s.dbg := rfl
@[simp] theorem State.log_e (s : State) (d : Diag) : (s.log d).e = s.e := rfl
@[simp] theorem State.log_hosts (s : State) (d : Diag) : (s.log d).hosts = s.hosts := rfl
@[simp] theorem State.log_hist (s : State) (d : Diag) : (s.log d).hist = s.hist ++ [.log d] := rfl
@[simp] theorem State.log_replies (s : State) (d : Diag) : (s.log d).replies = s.replies := rfl
@[simp] theorem State.log_core (s : State) (d : Diag) : (s.log d).core = s.core := rfl
@[simp] theorem State.log_sched (s : State) (d : Diag) : (s.log d).sched = s.sched := rfl
@[simp] theorem State.log_issuer (s : State) (d : Diag) : (s.log d).issuer = s.issuer := rfl
@[simp] theorem State.log_queue (s : State) (d : Diag) (id : QId) : (s.log d).queue id = s.queue id := by cases id <;> rfl

@[simp] theorem State.inject_cfg (s : State) (vec : Nat) : (s.inject vec).cfg = s.cfg := rfl
@[simp] theorem State.inject_bus (s : State) (vec : Nat) : (s.inject vec).bus = s.bus := rfl
@[simp] theorem State.inject_shi (s : State) (vec : Nat) : (s.inject vec).shi = s.shi := rfl
@[simp] theorem State.inject_esai (s : State) (vec : Nat) : (s.inject vec).esai = s.esai := rfl
@[simp] theorem State.inject_embc (s : State) (vec : Nat) : (s.inject vec).embc = s.embc := rfl
@[simp] theorem State.inject_dbg (s : State) (vec : Nat) : (s.inject vec).dbg = s.dbg := rfl
@[simp] theorem State.inject_e (s : State) (vec : Nat) : (s.inject vec).e = s.e := rfl
@[simp] theorem State.inject_hosts (s : State) (vec : Nat) : (s.inject vec).hosts = s.hosts := rfl
@[simp] theorem State.inject_hist (s : State) (vec : Nat) : (s.inject vec).hist = s.hist ++ [.inject vec] := rfl
@[simp] theorem State.inject_replies (s : State) (vec : Nat) : (s.inject vec).replies = s.replies := rfl
@[simp] theorem State.inject_core (s : State) (vec : Nat) : (s.inject vec).core = s.core := rfl
@[simp] theorem State.inject_sched (s : State) (vec : Nat) : (s.inject vec).sched = s.sched := rfl
@[simp] theorem State.inject_issuer (s : State) (vec : Nat) : (s.inject vec).issuer = s.issuer := rfl
@[simp] theorem State.inject_queue (s : State) (vec : Nat) (id : QId) : (s.inject vec).queue id = s.queue id := by cases id <;> rfl

@[simp] theorem State.pmemSet_cfg (s : State) (a w : Word) : (s.pmemSet a w).cfg = s.cfg := rfl
@[simp] theorem State.pmemSet_bus (s : State) (a w : Word) : (s.pmemSet a w).bus = s.bus := rfl
@[simp] theorem State.pmemSet_shi (s : State) (a w : Word) : (s.pmemSet a w).shi = s.shi := rfl
@[simp] theorem State.pmemSet_esai (s : State) (a w : Word) : (s.pmemSet a w).esai = s.esai := rfl
@[simp] theorem State.pmemSet_embc (s : State) (a w : Word) : (s.pmemSet a w).embc = s.embc := rfl
@[simp] theorem State.pmemSet_dbg (s : State) (a w : Word) : (s.pmemSet a w).dbg = s.dbg := rfl
@[simp] theorem State.pmemSet_e (s : State) (a w : Word) : (s.pmemSet a w).e = s.e := rfl
@[simp] theorem State.pmemSet_hosts (s : State) (a w : Word) : (s.pmemSet a w).hosts = s.hosts := rfl
@[simp] theorem State.pmemSet_hist (s : State) (a w : Word) : (s.pmemSet a w).hist = s.hist ++ [.pmemSet a w] := rfl
@[simp] theorem State.pmemSet_replies (s : State) (a w : Word) : (s.pmemSet a w).replies = s.replies := rfl
@[simp] theorem State.pmemSet_core (s : State) (a w : Word) : (s.pmemSet a w).core = s.core := rfl
@[simp] theorem State.pmemSet_sched (s : State) (a w : Word) : (s.pmemSet a w).sched = s.sched := rfl
@[simp] theorem State.pmemSet_issuer (s : State) (a w : Word) : (s.pmemSet a w).issuer = s.issuer := rfl
@[simp] theorem State.pmemSet_queue (s : State) (a w : Word) (id : QId) : (s.pmemSet a w).queue id = s.queue id := by cases id <;> rfl

@[simp] theorem State.setPc_cfg (s : State) (a : Word) : (s.setPc a).cfg = s.cfg := rfl
@[simp] theorem State.setPc_bus (s : State) (a : Word) : (s.setPc a).bus = s.bus := rfl
@[simp] theorem State.setPc_shi (s : State) (a : Word) : (s.setPc a).shi = s.shi := rfl
@[simp] theorem State.setPc_esai (s : State) (a : Word) : (s.setPc a).esai = s.esai := rfl
@[simp] theorem State.setPc_embc (s : State) (a : Word) : (s.setPc a).embc = s.embc := rfl
@[simp] theorem State.setPc_dbg (s : State) (a : Word) : (s.setPc a).dbg = s.dbg := rfl
@[simp] theorem State.setPc_e (s : State) (a : Word) : (s.setPc a).e = s.e := rfl
@[simp] theorem State.setPc_hosts (s : State) (a : Word) : (s.setPc a).hosts = s.hosts := rfl
@[simp] theorem State.setPc_hist (s : State) (a : Word) : (s.setPc a).hist = s.hist ++ [.setPc a] := rfl
@[simp] theorem State.setPc_replies (s : State) (a : Word) : (s.setPc a).replies = s.replies := rfl
@[simp] theorem State.setPc_core (s : State) (a : Word) : (s.setPc a).core = { s.core with pc := a.toNat } := rfl
@[simp] theorem State.setPc_sched (s : State) (a : Word) : (s.setPc a).sched = s.sched := rfl
@[simp] theorem State.setPc_issuer (s : State) (a : Word) : (s.setPc a).issuer = s.issuer := rfl
@[simp] theorem State.setPc_queue (s : State) (a : Word) (id : QId) : (s.setPc a).queue id = s.queue id := by cases id <;> rfl

@[simp] theorem State.reply_cfg (s : State) (ag : Agent) (o : Ending) : (s.reply ag o).cfg = s.cfg := rfl
@[simp] theorem State.reply_bus (s : State) (ag : Agent) (o : Ending) : (s.reply ag o).bus = s.bus := rfl
@[simp] theorem State.reply_shi (s : State) (ag : Agent) (o : Ending) : (s.reply ag o).shi = s.shi := rfl
@[simp] theorem State.reply_esai (s : State) (ag : Agent) (o : Ending) : (s.reply ag o).esai = s.esai := rfl
@[simp] theorem State.reply_embc (s : State) (ag : Agent) (o : Ending) : (s.reply ag o).embc = s.embc := rfl
@[simp] theorem State.reply_dbg (s : State) (ag : Agent) (o : Ending) : (s.reply ag o).dbg = s.dbg := rfl
@[simp] theorem State.reply_e (s : State) (ag : Agent) (o : Ending) : (s.reply ag o).e = s.e := rfl
@[simp] theorem State.reply_hosts (s : State) (ag : Agent) (o : Ending) : (s.reply ag o).hosts = s.hosts := rfl
@[simp] theorem State.reply_hist (s : State) (ag : Agent) (o : Ending) : (s.reply ag o).hist = s.hist := rfl
@[simp] theorem State.reply_replies (s : State) (ag : Agent) (o : Ending) : (s.reply ag o).replies = s.replies ++ [⟨ag, o⟩] := rfl
@[simp] theorem State.reply_core (s : State) (ag : Agent) (o : Ending) : (s.reply ag o).core = s.core := rfl
@[simp] theorem State.reply_sched (s : State) (ag : Agent) (o : Ending) : (s.reply ag o).sched = s.sched := rfl
@[simp] theorem State.reply_issuer (s : State) (ag : Agent) (o : Ending) : (s.reply ag o).issuer = s.issuer := rfl
@[simp] theorem State.reply_queue (s : State) (ag : Agent) (o : Ending) (id : QId) : (s.reply ag o).queue id = s.queue id := by cases id <;> rfl

@[simp] theorem State.doneE_cfg (s : State) (r : Result) : (s.doneE r).cfg = s.cfg := rfl
@[simp] theorem State.doneE_bus (s : State) (r : Result) : (s.doneE r).bus = s.bus := rfl
@[simp] theorem State.doneE_shi (s : State) (r : Result) : (s.doneE r).shi = s.shi := rfl
@[simp] theorem State.doneE_esai (s : State) (r : Result) : (s.doneE r).esai = s.esai := rfl
@[simp] theorem State.doneE_embc (s : State) (r : Result) : (s.doneE r).embc = s.embc := rfl
@[simp] theorem State.doneE_dbg (s : State) (r : Result) : (s.doneE r).dbg = s.dbg := rfl
@[simp] theorem State.doneE_e (s : State) (r : Result) : (s.doneE r).e = s.e := rfl
@[simp] theorem State.doneE_hosts (s : State) (r : Result) : (s.doneE r).hosts = s.hosts := rfl
@[simp] theorem State.doneE_hist (s : State) (r : Result) : (s.doneE r).hist = s.hist := rfl
@[simp] theorem State.doneE_replies (s : State) (r : Result) : (s.doneE r).replies = s.replies ++ [⟨.e, .done r⟩] := rfl
@[simp] theorem State.doneE_core (s : State) (r : Result) : (s.doneE r).core = s.core := rfl
@[simp] theorem State.doneE_sched (s : State) (r : Result) : (s.doneE r).sched = s.sched := rfl
@[simp] theorem State.doneE_issuer (s : State) (r : Result) : (s.doneE r).issuer = s.issuer := rfl
@[simp] theorem State.doneE_queue (s : State) (r : Result) (id : QId) : (s.doneE r).queue id = s.queue id := by cases id <;> rfl

@[simp] theorem State.holdE_cfg (s : State) (h : Held) : (s.holdE h).cfg = s.cfg := rfl
@[simp] theorem State.holdE_bus (s : State) (h : Held) : (s.holdE h).bus = s.bus := rfl
@[simp] theorem State.holdE_shi (s : State) (h : Held) : (s.holdE h).shi = s.shi := rfl
@[simp] theorem State.holdE_esai (s : State) (h : Held) : (s.holdE h).esai = s.esai := rfl
@[simp] theorem State.holdE_embc (s : State) (h : Held) : (s.holdE h).embc = s.embc := rfl
@[simp] theorem State.holdE_dbg (s : State) (h : Held) : (s.holdE h).dbg = s.dbg := rfl
@[simp] theorem State.holdE_e (s : State) (h : Held) : (s.holdE h).e = { s.e with held := some h } := rfl
@[simp] theorem State.holdE_hosts (s : State) (h : Held) : (s.holdE h).hosts = s.hosts := rfl
@[simp] theorem State.holdE_hist (s : State) (h : Held) : (s.holdE h).hist = s.hist := rfl
@[simp] theorem State.holdE_replies (s : State) (h : Held) : (s.holdE h).replies = s.replies := rfl
@[simp] theorem State.holdE_core (s : State) (h : Held) : (s.holdE h).core = s.core := rfl
@[simp] theorem State.holdE_sched (s : State) (h : Held) : (s.holdE h).sched = s.sched := rfl
@[simp] theorem State.holdE_issuer (s : State) (h : Held) : (s.holdE h).issuer = s.issuer := rfl
@[simp] theorem State.holdE_queue (s : State) (h : Held) (id : QId) : (s.holdE h).queue id = s.queue id := by cases id <;> rfl

@[simp] theorem State.freeE_cfg (s : State) : (s.freeE).cfg = s.cfg := rfl
@[simp] theorem State.freeE_bus (s : State) : (s.freeE).bus = s.bus := rfl
@[simp] theorem State.freeE_shi (s : State) : (s.freeE).shi = s.shi := rfl
@[simp] theorem State.freeE_esai (s : State) : (s.freeE).esai = s.esai := rfl
@[simp] theorem State.freeE_embc (s : State) : (s.freeE).embc = s.embc := rfl
@[simp] theorem State.freeE_dbg (s : State) : (s.freeE).dbg = s.dbg := rfl
@[simp] theorem State.freeE_e (s : State) : (s.freeE).e = { s.e with held := none } := rfl
@[simp] theorem State.freeE_hosts (s : State) : (s.freeE).hosts = s.hosts := rfl
@[simp] theorem State.freeE_hist (s : State) : (s.freeE).hist = s.hist := rfl
@[simp] theorem State.freeE_replies (s : State) : (s.freeE).replies = s.replies := rfl
@[simp] theorem State.freeE_core (s : State) : (s.freeE).core = s.core := rfl
@[simp] theorem State.freeE_sched (s : State) : (s.freeE).sched = s.sched := rfl
@[simp] theorem State.freeE_issuer (s : State) : (s.freeE).issuer = s.issuer := rfl
@[simp] theorem State.freeE_queue (s : State) (id : QId) : (s.freeE).queue id = s.queue id := by cases id <;> rfl

@[simp] theorem State.abortE_cfg (s : State) : (s.abortE).cfg = s.cfg := rfl
@[simp] theorem State.abortE_bus (s : State) : (s.abortE).bus = s.bus := rfl
@[simp] theorem State.abortE_shi (s : State) : (s.abortE).shi = s.shi := rfl
@[simp] theorem State.abortE_esai (s : State) : (s.abortE).esai = s.esai := rfl
@[simp] theorem State.abortE_embc (s : State) : (s.abortE).embc = s.embc := rfl
@[simp] theorem State.abortE_dbg (s : State) : (s.abortE).dbg = s.dbg := rfl
@[simp] theorem State.abortE_e (s : State) : (s.abortE).e = { s.e with status := .aborted } := rfl
@[simp] theorem State.abortE_hosts (s : State) : (s.abortE).hosts = s.hosts := rfl
@[simp] theorem State.abortE_hist (s : State) : (s.abortE).hist = s.hist := rfl
@[simp] theorem State.abortE_replies (s : State) : (s.abortE).replies = s.replies ++ [⟨.e, .abort⟩] := rfl
@[simp] theorem State.abortE_core (s : State) : (s.abortE).core = s.core := rfl
@[simp] theorem State.abortE_sched (s : State) : (s.abortE).sched = s.sched := rfl
@[simp] theorem State.abortE_issuer (s : State) : (s.abortE).issuer = s.issuer := rfl
@[simp] theorem State.abortE_queue (s : State) (id : QId) : (s.abortE).queue id = s.queue id := by cases id <;> rfl

@[simp] theorem State.holdHost_cfg (s : State) (ag : Agent) (op : HostOp) : (s.holdHost ag op).cfg = s.cfg := rfl
@[simp] theorem State.holdHost_bus (s : State) (ag : Agent) (op : HostOp) : (s.holdHost ag op).bus = s.bus := rfl
@[simp] theorem State.holdHost_shi (s : State) (ag : Agent) (op : HostOp) : (s.holdHost ag op).shi = s.shi := rfl
@[simp] theorem State.holdHost_esai (s : State) (ag : Agent) (op : HostOp) : (s.holdHost ag op).esai = s.esai := rfl
@[simp] theorem State.holdHost_embc (s : State) (ag : Agent) (op : HostOp) : (s.holdHost ag op).embc = s.embc := rfl
@[simp] theorem State.holdHost_dbg (s : State) (ag : Agent) (op : HostOp) : (s.holdHost ag op).dbg = s.dbg := rfl
@[simp] theorem State.holdHost_e (s : State) (ag : Agent) (op : HostOp) : (s.holdHost ag op).e = s.e := rfl
@[simp] theorem State.holdHost_hosts (s : State) (ag : Agent) (op : HostOp) : (s.holdHost ag op).hosts = s.hosts ++ [(ag, op)] := rfl
@[simp] theorem State.holdHost_hist (s : State) (ag : Agent) (op : HostOp) : (s.holdHost ag op).hist = s.hist := rfl
@[simp] theorem State.holdHost_replies (s : State) (ag : Agent) (op : HostOp) : (s.holdHost ag op).replies = s.replies := rfl
@[simp] theorem State.holdHost_core (s : State) (ag : Agent) (op : HostOp) : (s.holdHost ag op).core = s.core := rfl
@[simp] theorem State.holdHost_sched (s : State) (ag : Agent) (op : HostOp) : (s.holdHost ag op).sched = s.sched := rfl
@[simp] theorem State.holdHost_issuer (s : State) (ag : Agent) (op : HostOp) : (s.holdHost ag op).issuer = s.issuer := rfl
@[simp] theorem State.holdHost_queue (s : State) (ag : Agent) (op : HostOp) (id : QId) : (s.holdHost ag op).queue id = s.queue id := by cases id <;> rfl

@[simp] theorem State.freeHost_cfg (s : State) (ag : Agent) : (s.freeHost ag).cfg = s.cfg := rfl
@[simp] theorem State.freeHost_bus (s : State) (ag : Agent) : (s.freeHost ag).bus = s.bus := rfl
@[simp] theorem State.freeHost_shi (s : State) (ag : Agent) : (s.freeHost ag).shi = s.shi := rfl
@[simp] theorem State.freeHost_esai (s : State) (ag : Agent) : (s.freeHost ag).esai = s.esai := rfl
@[simp] theorem State.freeHost_embc (s : State) (ag : Agent) : (s.freeHost ag).embc = s.embc := rfl
@[simp] theorem State.freeHost_dbg (s : State) (ag : Agent) : (s.freeHost ag).dbg = s.dbg := rfl
@[simp] theorem State.freeHost_e (s : State) (ag : Agent) : (s.freeHost ag).e = s.e := rfl
@[simp] theorem State.freeHost_hosts (s : State) (ag : Agent) : (s.freeHost ag).hosts = s.hosts.filter (fun p => decide (p.1 ≠ ag)) := rfl
@[simp] theorem State.freeHost_hist (s : State) (ag : Agent) : (s.freeHost ag).hist = s.hist := rfl
@[simp] theorem State.freeHost_replies (s : State) (ag : Agent) : (s.freeHost ag).replies = s.replies := rfl
@[simp] theorem State.freeHost_core (s : State) (ag : Agent) : (s.freeHost ag).core = s.core := rfl
@[simp] theorem State.freeHost_sched (s : State) (ag : Agent) : (s.freeHost ag).sched = s.sched := rfl
@[simp] theorem State.freeHost_issuer (s : State) (ag : Agent) : (s.freeHost ag).issuer = s.issuer := rfl
@[simp] theorem State.freeHost_queue (s : State) (ag : Agent) (id : QId) : (s.freeHost ag).queue id = s.queue id := by cases id <;> rfl

@[simp] theorem State.setMode_cfg (s : State) (m : DbgMode) : (s.setMode m).cfg = s.cfg := rfl
@[simp] theorem State.setMode_bus (s : State) (m : DbgMode) : (s.setMode m).bus = s.bus := rfl
@[simp] theorem State.setMode_shi (s : State) (m : DbgMode) : (s.setMode m).shi = s.shi := rfl
@[simp] theorem State.setMode_esai (s : State) (m : DbgMode) : (s.setMode m).esai = s.esai := rfl
@[simp] theorem State.setMode_embc (s : State) (m : DbgMode) : (s.setMode m).embc = s.embc := rfl
@[simp] theorem State.setMode_dbg (s : State) (m : DbgMode) : (s.setMode m).dbg = { s.dbg with mode := m } := rfl
@[simp] theorem State.setMode_e (s : State) (m : DbgMode) : (s.setMode m).e = s.e := rfl
@[simp] theorem State.setMode_hosts (s : State) (m : DbgMode) : (s.setMode m).hosts = s.hosts := rfl
@[simp] theorem State.setMode_hist (s : State) (m : DbgMode) : (s.setMode m).hist = s.hist := rfl
@[simp] theorem State.setMode_replies (s : State) (m : DbgMode) : (s.setMode m).replies = s.replies := rfl
@[simp] theorem State.setMode_core (s : State) (m : DbgMode) : (s.setMode m).core = s.core := rfl
@[simp] theorem State.setMode_sched (s : State) (m : DbgMode) : (s.setMode m).sched = s.sched := rfl
@[simp] theorem State.setMode_issuer (s : State) (m : DbgMode) : (s.setMode m).issuer = s.issuer := rfl
@[simp] theorem State.setMode_queue (s : State) (m : DbgMode) (id : QId) : (s.setMode m).queue id = s.queue id := by cases id <;> rfl

@[simp] theorem State.setBps_cfg (s : State) (l : List Word) : (s.setBps l).cfg = s.cfg := rfl
@[simp] theorem State.setBps_bus (s : State) (l : List Word) : (s.setBps l).bus = s.bus := rfl
@[simp] theorem State.setBps_shi (s : State) (l : List Word) : (s.setBps l).shi = s.shi := rfl
@[simp] theorem State.setBps_esai (s : State) (l : List Word) : (s.setBps l).esai = s.esai := rfl
@[simp] theorem State.setBps_embc (s : State) (l : List Word) : (s.setBps l).embc = s.embc := rfl
@[simp] theorem State.setBps_dbg (s : State) (l : List Word) : (s.setBps l).dbg = { s.dbg with bps := l } := rfl
@[simp] theorem State.setBps_e (s : State) (l : List Word) : (s.setBps l).e = s.e := rfl
@[simp] theorem State.setBps_hosts (s : State) (l : List Word) : (s.setBps l).hosts = s.hosts := rfl
@[simp] theorem State.setBps_hist (s : State) (l : List Word) : (s.setBps l).hist = s.hist := rfl
@[simp] theorem State.setBps_replies (s : State) (l : List Word) : (s.setBps l).replies = s.replies := rfl
@[simp] theorem State.setBps_core (s : State) (l : List Word) : (s.setBps l).core = s.core := rfl
@[simp] theorem State.setBps_sched (s : State) (l : List Word) : (s.setBps l).sched = s.sched := rfl
@[simp] theorem State.setBps_issuer (s : State) (l : List Word) : (s.setBps l).issuer = s.issuer := rfl
@[simp] theorem State.setBps_queue (s : State) (l : List Word) (id : QId) : (s.setBps l).queue id = s.queue id := by cases id <;> rfl

@[simp] theorem State.coreRetire_cfg (s : State) : (s.coreRetire).cfg = s.cfg := rfl
@[simp] theorem State.coreRetire_bus (s : State) : (s.coreRetire).bus = s.bus := rfl
@[simp] theorem State.coreRetire_shi (s : State) : (s.coreRetire).shi = s.shi := rfl
@[simp] theorem State.coreRetire_esai (s : State) : (s.coreRetire).esai = s.esai := rfl
@[simp] theorem State.coreRetire_embc (s : State) : (s.coreRetire).embc = s.embc := rfl
@[simp] theorem State.coreRetire_dbg (s : State) : (s.coreRetire).dbg = s.dbg := rfl
@[simp] theorem State.coreRetire_e (s : State) : (s.coreRetire).e = s.e := rfl
@[simp] theorem State.coreRetire_hosts (s : State) : (s.coreRetire).hosts = s.hosts := rfl
@[simp] theorem State.coreRetire_hist (s : State) : (s.coreRetire).hist = s.hist := rfl
@[simp] theorem State.coreRetire_replies (s : State) : (s.coreRetire).replies = s.replies := rfl
@[simp] theorem State.coreRetire_core (s : State) : (s.coreRetire).core = { s.core with counter := s.core.next.counter, pc := s.core.next.pc } := rfl
@[simp] theorem State.coreRetire_sched (s : State) : (s.coreRetire).sched = s.sched := rfl
@[simp] theorem State.coreRetire_issuer (s : State) : (s.coreRetire).issuer = s.issuer := rfl
@[simp] theorem State.coreRetire_queue (s : State) (id : QId) : (s.coreRetire).queue id = s.queue id := by cases id <;> rfl

@[simp] theorem State.setRxw_cfg (s : State) (c : Fin 4) (w : Word) : (s.setRxw c w).cfg = s.cfg := rfl
@[simp] theorem State.setRxw_bus (s : State) (c : Fin 4) (w : Word) : (s.setRxw c w).bus = s.bus := rfl
@[simp] theorem State.setRxw_shi (s : State) (c : Fin 4) (w : Word) : (s.setRxw c w).shi = s.shi := rfl
@[simp] theorem State.setRxw_esai (s : State) (c : Fin 4) (w : Word) : (s.setRxw c w).esai = { s.esai with rxw := s.esai.rxw.set c w } := rfl
@[simp] theorem State.setRxw_embc (s : State) (c : Fin 4) (w : Word) : (s.setRxw c w).embc = s.embc := rfl
@[simp] theorem State.setRxw_dbg (s : State) (c : Fin 4) (w : Word) : (s.setRxw c w).dbg = s.dbg := rfl
@[simp] theorem State.setRxw_e (s : State) (c : Fin 4) (w : Word) : (s.setRxw c w).e = s.e := rfl
@[simp] theorem State.setRxw_hosts (s : State) (c : Fin 4) (w : Word) : (s.setRxw c w).hosts = s.hosts := rfl
@[simp] theorem State.setRxw_hist (s : State) (c : Fin 4) (w : Word) : (s.setRxw c w).hist = s.hist := rfl
@[simp] theorem State.setRxw_replies (s : State) (c : Fin 4) (w : Word) : (s.setRxw c w).replies = s.replies := rfl
@[simp] theorem State.setRxw_core (s : State) (c : Fin 4) (w : Word) : (s.setRxw c w).core = s.core := rfl
@[simp] theorem State.setRxw_sched (s : State) (c : Fin 4) (w : Word) : (s.setRxw c w).sched = s.sched := rfl
@[simp] theorem State.setRxw_issuer (s : State) (c : Fin 4) (w : Word) : (s.setRxw c w).issuer = s.issuer := rfl
@[simp] theorem State.setRxw_queue (s : State) (c : Fin 4) (w : Word) (id : QId) : (s.setRxw c w).queue id = s.queue id := by cases id <;> rfl

@[simp] theorem State.esaiToggle_cfg (s : State) : (s.esaiToggle).cfg = s.cfg := rfl
@[simp] theorem State.esaiToggle_bus (s : State) : (s.esaiToggle).bus = s.bus := rfl
@[simp] theorem State.esaiToggle_shi (s : State) : (s.esaiToggle).shi = s.shi := rfl
@[simp] theorem State.esaiToggle_esai (s : State) : (s.esaiToggle).esai = { s.esai with tfs := !s.esai.tfs } := rfl
@[simp] theorem State.esaiToggle_embc (s : State) : (s.esaiToggle).embc = s.embc := rfl
@[simp] theorem State.esaiToggle_dbg (s : State) : (s.esaiToggle).dbg = s.dbg := rfl
@[simp] theorem State.esaiToggle_e (s : State) : (s.esaiToggle).e = s.e := rfl
@[simp] theorem State.esaiToggle_hosts (s : State) : (s.esaiToggle).hosts = s.hosts := rfl
@[simp] theorem State.esaiToggle_hist (s : State) : (s.esaiToggle).hist = s.hist := rfl
@[simp] theorem State.esaiToggle_replies (s : State) : (s.esaiToggle).replies = s.replies := rfl
@[simp] theorem State.esaiToggle_core (s : State) : (s.esaiToggle).core = s.core := rfl
@[simp] theorem State.esaiToggle_sched (s : State) : (s.esaiToggle).sched = s.sched := rfl
@[simp] theorem State.esaiToggle_issuer (s : State) : (s.esaiToggle).issuer = s.issuer := rfl
@[simp] theorem State.esaiToggle_queue (s : State) (id : QId) : (s.esaiToggle).queue id = s.queue id := by cases id <;> rfl

@[simp] theorem State.esaiSetStatus_cfg (s : State) : (s.esaiSetStatus).cfg = s.cfg := rfl
@[simp] theorem State.esaiSetStatus_bus (s : State) : (s.esaiSetStatus).bus = s.bus := rfl
@[simp] theorem State.esaiSetStatus_shi (s : State) : (s.esaiSetStatus).shi = s.shi := rfl
@[simp] theorem State.esaiSetStatus_esai (s : State) : (s.esaiSetStatus).esai = { s.esai with tue := true, tde := true, wmask := 0, stRead := false } := rfl
@[simp] theorem State.esaiSetStatus_embc (s : State) : (s.esaiSetStatus).embc = s.embc := rfl
@[simp] theorem State.esaiSetStatus_dbg (s : State) : (s.esaiSetStatus).dbg = s.dbg := rfl
@[simp] theorem State.esaiSetStatus_e (s : State) : (s.esaiSetStatus).e = s.e := rfl
@[simp] theorem State.esaiSetStatus_hosts (s : State) : (s.esaiSetStatus).hosts = s.hosts := rfl
@[simp] theorem State.esaiSetStatus_hist (s : State) : (s.esaiSetStatus).hist = s.hist := rfl
@[simp] theorem State.esaiSetStatus_replies (s : State) : (s.esaiSetStatus).replies = s.replies := rfl
@[simp] theorem State.esaiSetStatus_core (s : State) : (s.esaiSetStatus).core = s.core := rfl
@[simp] theorem State.esaiSetStatus_sched (s : State) : (s.esaiSetStatus).sched = s.sched := rfl
@[simp] theorem State.esaiSetStatus_issuer (s : State) : (s.esaiSetStatus).issuer = s.issuer := rfl
@[simp] theorem State.esaiSetStatus_queue (s : State) (id : QId) : (s.esaiSetStatus).queue id = s.queue id := by cases id <;> rfl

@[simp] theorem State.txAccept_cfg (s : State) (c : Fin 6) (v : Word) : (s.txAccept c v).cfg = s.cfg := rfl
@[simp] theorem State.txAccept_bus (s : State) (c : Fin 6) (v : Word) : (s.txAccept c v).bus = s.bus := rfl
@[simp] theorem State.txAccept_shi (s : State) (c : Fin 6) (v : Word) : (s.txAccept c v).shi = s.shi := rfl
@[simp] theorem State.txAccept_esai (s : State) (c : Fin 6) (v : Word) : (s.txAccept c v).esai = { s.esai with txw := s.esai.txw.set c v, wmask := s.esai.wmask ||| (1#6 <<< c.val) } := rfl
@[simp] theorem State.txAccept_embc (s : State) (c : Fin 6) (v : Word) : (s.txAccept c v).embc = s.embc := rfl
@[simp] theorem State.txAccept_dbg (s : State) (c : Fin 6) (v : Word) : (s.txAccept c v).dbg = s.dbg := rfl
@[simp] theorem State.txAccept_e (s : State) (c : Fin 6) (v : Word) : (s.txAccept c v).e = s.e := rfl
@[simp] theorem State.txAccept_hosts (s : State) (c : Fin 6) (v : Word) : (s.txAccept c v).hosts = s.hosts := rfl
@[simp] theorem State.txAccept_hist (s : State) (c : Fin 6) (v : Word) : (s.txAccept c v).hist = s.hist := rfl
@[simp] theorem State.txAccept_replies (s : State) (c : Fin 6) (v : Word) : (s.txAccept c v).replies = s.replies := rfl
@[simp] theorem State.txAccept_core (s : State) (c : Fin 6) (v : Word) : (s.txAccept c v).core = s.core := rfl
@[simp] theorem State.txAccept_sched (s : State) (c : Fin 6) (v : Word) : (s.txAccept c v).sched = s.sched := rfl
@[simp] theorem State.txAccept_issuer (s : State) (c : Fin 6) (v : Word) : (s.txAccept c v).issuer = s.issuer := rfl
@[simp] theorem State.txAccept_queue (s : State) (c : Fin 6) (v : Word) (id : QId) : (s.txAccept c v).queue id = s.queue id := by cases id <;> rfl

@[simp] theorem State.countTx_cfg (s : State) : (s.countTx).cfg = s.cfg := rfl
@[simp] theorem State.countTx_bus (s : State) : (s.countTx).bus = s.bus := rfl
@[simp] theorem State.countTx_shi (s : State) : (s.countTx).shi = { s.shi with pendTx := s.shi.pendTx + 1 } := rfl
@[simp] theorem State.countTx_esai (s : State) : (s.countTx).esai = s.esai := rfl
@[simp] theorem State.countTx_embc (s : State) : (s.countTx).embc = s.embc := rfl
@[simp] theorem State.countTx_dbg (s : State) : (s.countTx).dbg = s.dbg := rfl
@[simp] theorem State.countTx_e (s : State) : (s.countTx).e = s.e := rfl
@[simp] theorem State.countTx_hosts (s : State) : (s.countTx).hosts = s.hosts := rfl
@[simp] theorem State.countTx_hist (s : State) : (s.countTx).hist = s.hist := rfl
@[simp] theorem State.countTx_replies (s : State) : (s.countTx).replies = s.replies := rfl
@[simp] theorem State.countTx_core (s : State) : (s.countTx).core = s.core := rfl
@[simp] theorem State.countTx_sched (s : State) : (s.countTx).sched = s.sched := rfl
@[simp] theorem State.countTx_issuer (s : State) : (s.countTx).issuer = s.issuer := rfl
@[simp] theorem State.countTx_queue (s : State) (id : QId) : (s.countTx).queue id = s.queue id := by cases id <;> rfl

/-! ### Updates with cases -/

@[simp] theorem State.setQueue_cfg (s : State) (id : QId) (q : Queue) : (s.setQueue id q).cfg = s.cfg := by cases id <;> rfl
@[simp] theorem State.setQueue_bus (s : State) (id : QId) (q : Queue) : (s.setQueue id q).bus = s.bus := by cases id <;> rfl
@[simp] theorem State.setQueue_embc (s : State) (id : QId) (q : Queue) : (s.setQueue id q).embc = s.embc := by cases id <;> rfl
@[simp] theorem State.setQueue_dbg (s : State) (id : QId) (q : Queue) : (s.setQueue id q).dbg = s.dbg := by cases id <;> rfl
@[simp] theorem State.setQueue_e (s : State) (id : QId) (q : Queue) : (s.setQueue id q).e = s.e := by cases id <;> rfl
@[simp] theorem State.setQueue_hosts (s : State) (id : QId) (q : Queue) : (s.setQueue id q).hosts = s.hosts := by cases id <;> rfl
@[simp] theorem State.setQueue_hist (s : State) (id : QId) (q : Queue) : (s.setQueue id q).hist = s.hist := by cases id <;> rfl
@[simp] theorem State.setQueue_replies (s : State) (id : QId) (q : Queue) : (s.setQueue id q).replies = s.replies := by cases id <;> rfl
@[simp] theorem State.setQueue_core (s : State) (id : QId) (q : Queue) : (s.setQueue id q).core = s.core := by cases id <;> rfl
@[simp] theorem State.setQueue_sched (s : State) (id : QId) (q : Queue) : (s.setQueue id q).sched = s.sched := by cases id <;> rfl
@[simp] theorem State.setQueue_issuer (s : State) (id : QId) (q : Queue) : (s.setQueue id q).issuer = s.issuer := by cases id <;> rfl

@[simp] theorem State.shutQueue_cfg (s : State) (id : QId) : (s.shutQueue id).cfg = s.cfg := by cases id <;> rfl
@[simp] theorem State.shutQueue_bus (s : State) (id : QId) : (s.shutQueue id).bus = s.bus := by cases id <;> rfl
@[simp] theorem State.shutQueue_embc (s : State) (id : QId) : (s.shutQueue id).embc = s.embc := by cases id <;> rfl
@[simp] theorem State.shutQueue_dbg (s : State) (id : QId) : (s.shutQueue id).dbg = s.dbg := by cases id <;> rfl
@[simp] theorem State.shutQueue_e (s : State) (id : QId) : (s.shutQueue id).e = s.e := by cases id <;> rfl
@[simp] theorem State.shutQueue_hosts (s : State) (id : QId) : (s.shutQueue id).hosts = s.hosts := by cases id <;> rfl
@[simp] theorem State.shutQueue_hist (s : State) (id : QId) : (s.shutQueue id).hist = s.hist := by cases id <;> rfl
@[simp] theorem State.shutQueue_replies (s : State) (id : QId) : (s.shutQueue id).replies = s.replies := by cases id <;> rfl
@[simp] theorem State.shutQueue_core (s : State) (id : QId) : (s.shutQueue id).core = s.core := by cases id <;> rfl
@[simp] theorem State.shutQueue_sched (s : State) (id : QId) : (s.shutQueue id).sched = s.sched := by cases id <;> rfl
@[simp] theorem State.shutQueue_issuer (s : State) (id : QId) : (s.shutQueue id).issuer = s.issuer := by cases id <;> rfl

@[simp] theorem State.setAreaMem_cfg (s : State) (a : Area) (m : Memory) : (s.setAreaMem a m).cfg = s.cfg := by cases a <;> rfl
@[simp] theorem State.setAreaMem_shi (s : State) (a : Area) (m : Memory) : (s.setAreaMem a m).shi = s.shi := by cases a <;> rfl
@[simp] theorem State.setAreaMem_esai (s : State) (a : Area) (m : Memory) : (s.setAreaMem a m).esai = s.esai := by cases a <;> rfl
@[simp] theorem State.setAreaMem_embc (s : State) (a : Area) (m : Memory) : (s.setAreaMem a m).embc = s.embc := by cases a <;> rfl
@[simp] theorem State.setAreaMem_dbg (s : State) (a : Area) (m : Memory) : (s.setAreaMem a m).dbg = s.dbg := by cases a <;> rfl
@[simp] theorem State.setAreaMem_e (s : State) (a : Area) (m : Memory) : (s.setAreaMem a m).e = s.e := by cases a <;> rfl
@[simp] theorem State.setAreaMem_hosts (s : State) (a : Area) (m : Memory) : (s.setAreaMem a m).hosts = s.hosts := by cases a <;> rfl
@[simp] theorem State.setAreaMem_hist (s : State) (a : Area) (m : Memory) : (s.setAreaMem a m).hist = s.hist := by cases a <;> rfl
@[simp] theorem State.setAreaMem_replies (s : State) (a : Area) (m : Memory) : (s.setAreaMem a m).replies = s.replies := by cases a <;> rfl
@[simp] theorem State.setAreaMem_core (s : State) (a : Area) (m : Memory) : (s.setAreaMem a m).core = s.core := by cases a <;> rfl
@[simp] theorem State.setAreaMem_sched (s : State) (a : Area) (m : Memory) : (s.setAreaMem a m).sched = s.sched := by cases a <;> rfl
@[simp] theorem State.setAreaMem_issuer (s : State) (a : Area) (m : Memory) : (s.setAreaMem a m).issuer = s.issuer := by cases a <;> rfl

@[simp] theorem State.setBacking_cfg (s : State) (a : Area) (off v : Word) : (s.setBacking a off v).cfg = s.cfg := by cases a <;> rfl
@[simp] theorem State.setBacking_shi (s : State) (a : Area) (off v : Word) : (s.setBacking a off v).shi = s.shi := by cases a <;> rfl
@[simp] theorem State.setBacking_esai (s : State) (a : Area) (off v : Word) : (s.setBacking a off v).esai = s.esai := by cases a <;> rfl
@[simp] theorem State.setBacking_embc (s : State) (a : Area) (off v : Word) : (s.setBacking a off v).embc = s.embc := by cases a <;> rfl
@[simp] theorem State.setBacking_dbg (s : State) (a : Area) (off v : Word) : (s.setBacking a off v).dbg = s.dbg := by cases a <;> rfl
@[simp] theorem State.setBacking_e (s : State) (a : Area) (off v : Word) : (s.setBacking a off v).e = s.e := by cases a <;> rfl
@[simp] theorem State.setBacking_hosts (s : State) (a : Area) (off v : Word) : (s.setBacking a off v).hosts = s.hosts := by cases a <;> rfl
@[simp] theorem State.setBacking_hist (s : State) (a : Area) (off v : Word) : (s.setBacking a off v).hist = s.hist := by cases a <;> rfl
@[simp] theorem State.setBacking_replies (s : State) (a : Area) (off v : Word) : (s.setBacking a off v).replies = s.replies := by cases a <;> rfl
@[simp] theorem State.setBacking_core (s : State) (a : Area) (off v : Word) : (s.setBacking a off v).core = s.core := by cases a <;> rfl
@[simp] theorem State.setBacking_sched (s : State) (a : Area) (off v : Word) : (s.setBacking a off v).sched = s.sched := by cases a <;> rfl
@[simp] theorem State.setBacking_issuer (s : State) (a : Area) (off v : Word) : (s.setBacking a off v).issuer = s.issuer := by cases a <;> rfl

@[simp] theorem State.memReadState_cfg (s : State) (a : Area) (off : Word) : (s.memReadState a off).cfg = s.cfg := by unfold State.memReadState; split <;> rfl
@[simp] theorem State.memReadState_bus (s : State) (a : Area) (off : Word) : (s.memReadState a off).bus = s.bus := by unfold State.memReadState; split <;> rfl
@[simp] theorem State.memReadState_shi (s : State) (a : Area) (off : Word) : (s.memReadState a off).shi = s.shi := by unfold State.memReadState; split <;> rfl
@[simp] theorem State.memReadState_esai (s : State) (a : Area) (off : Word) : (s.memReadState a off).esai = s.esai := by unfold State.memReadState; split <;> rfl
@[simp] theorem State.memReadState_embc (s : State) (a : Area) (off : Word) : (s.memReadState a off).embc = s.embc := by unfold State.memReadState; split <;> rfl
@[simp] theorem State.memReadState_dbg (s : State) (a : Area) (off : Word) : (s.memReadState a off).dbg = s.dbg := by unfold State.memReadState; split <;> rfl
@[simp] theorem State.memReadState_e (s : State) (a : Area) (off : Word) : (s.memReadState a off).e = s.e := by unfold State.memReadState; split <;> rfl
@[simp] theorem State.memReadState_hosts (s : State) (a : Area) (off : Word) : (s.memReadState a off).hosts = s.hosts := by unfold State.memReadState; split <;> rfl
@[simp] theorem State.memReadState_replies (s : State) (a : Area) (off : Word) : (s.memReadState a off).replies = s.replies := by unfold State.memReadState; split <;> rfl
@[simp] theorem State.memReadState_core (s : State) (a : Area) (off : Word) : (s.memReadState a off).core = s.core := by unfold State.memReadState; split <;> rfl
@[simp] theorem State.memReadState_sched (s : State) (a : Area) (off : Word) : (s.memReadState a off).sched = s.sched := by unfold State.memReadState; split <;> rfl
@[simp] theorem State.memReadState_issuer (s : State) (a : Area) (off : Word) : (s.memReadState a off).issuer = s.issuer := by unfold State.memReadState; split <;> rfl

@[simp] theorem State.memWrite_cfg (s : State) (a : Area) (off v : Word) : (s.memWrite a off v).cfg = s.cfg := by unfold State.memWrite; split <;> simp
@[simp] theorem State.memWrite_shi (s : State) (a : Area) (off v : Word) : (s.memWrite a off v).shi = s.shi := by unfold State.memWrite; split <;> simp
@[simp] theorem State.memWrite_esai (s : State) (a : Area) (off v : Word) : (s.memWrite a off v).esai = s.esai := by unfold State.memWrite; split <;> simp
@[simp] theorem State.memWrite_embc (s : State) (a : Area) (off v : Word) : (s.memWrite a off v).embc = s.embc := by unfold State.memWrite; split <;> simp
@[simp] theorem State.memWrite_dbg (s : State) (a : Area) (off v : Word) : (s.memWrite a off v).dbg = s.dbg := by unfold State.memWrite; split <;> simp
@[simp] theorem State.memWrite_e (s : State) (a : Area) (off v : Word) : (s.memWrite a off v).e = s.e := by unfold State.memWrite; split <;> simp
@[simp] theorem State.memWrite_hosts (s : State) (a : Area) (off v : Word) : (s.memWrite a off v).hosts = s.hosts := by unfold State.memWrite; split <;> simp
@[simp] theorem State.memWrite_replies (s : State) (a : Area) (off v : Word) : (s.memWrite a off v).replies = s.replies := by unfold State.memWrite; split <;> simp
@[simp] theorem State.memWrite_core (s : State) (a : Area) (off v : Word) : (s.memWrite a off v).core = s.core := by unfold State.memWrite; split <;> simp
@[simp] theorem State.memWrite_sched (s : State) (a : Area) (off v : Word) : (s.memWrite a off v).sched = s.sched := by unfold State.memWrite; split <;> simp
@[simp] theorem State.memWrite_issuer (s : State) (a : Area) (off v : Word) : (s.memWrite a off v).issuer = s.issuer := by unfold State.memWrite; split <;> simp

@[simp] theorem State.countRx_cfg (s : State) : (s.countRx).cfg = s.cfg := by unfold State.countRx; split <;> rfl
@[simp] theorem State.countRx_bus (s : State) : (s.countRx).bus = s.bus := by unfold State.countRx; split <;> rfl
@[simp] theorem State.countRx_esai (s : State) : (s.countRx).esai = s.esai := by unfold State.countRx; split <;> rfl
@[simp] theorem State.countRx_embc (s : State) : (s.countRx).embc = s.embc := by unfold State.countRx; split <;> rfl
@[simp] theorem State.countRx_dbg (s : State) : (s.countRx).dbg = s.dbg := by unfold State.countRx; split <;> rfl
@[simp] theorem State.countRx_e (s : State) : (s.countRx).e = s.e := by unfold State.countRx; split <;> rfl
@[simp] theorem State.countRx_hosts (s : State) : (s.countRx).hosts = s.hosts := by unfold State.countRx; split <;> rfl
@[simp] theorem State.countRx_hist (s : State) : (s.countRx).hist = s.hist := by unfold State.countRx; split <;> rfl
@[simp] theorem State.countRx_replies (s : State) : (s.countRx).replies = s.replies := by unfold State.countRx; split <;> rfl
@[simp] theorem State.countRx_core (s : State) : (s.countRx).core = s.core := by unfold State.countRx; split <;> rfl
@[simp] theorem State.countRx_sched (s : State) : (s.countRx).sched = s.sched := by unfold State.countRx; split <;> rfl
@[simp] theorem State.countRx_issuer (s : State) : (s.countRx).issuer = s.issuer := by unfold State.countRx; split <;> rfl

@[simp] theorem State.afterHostPush_cfg (s : State) (id : QId) : (s.afterHostPush id).cfg = s.cfg := by cases id <;> simp [State.afterHostPush]
@[simp] theorem State.afterHostPush_bus (s : State) (id : QId) : (s.afterHostPush id).bus = s.bus := by cases id <;> simp [State.afterHostPush]
@[simp] theorem State.afterHostPush_esai (s : State) (id : QId) : (s.afterHostPush id).esai = s.esai := by cases id <;> simp [State.afterHostPush]
@[simp] theorem State.afterHostPush_embc (s : State) (id : QId) : (s.afterHostPush id).embc = s.embc := by cases id <;> simp [State.afterHostPush]
@[simp] theorem State.afterHostPush_dbg (s : State) (id : QId) : (s.afterHostPush id).dbg = s.dbg := by cases id <;> simp [State.afterHostPush]
@[simp] theorem State.afterHostPush_e (s : State) (id : QId) : (s.afterHostPush id).e = s.e := by cases id <;> simp [State.afterHostPush]
@[simp] theorem State.afterHostPush_hosts (s : State) (id : QId) : (s.afterHostPush id).hosts = s.hosts := by cases id <;> simp [State.afterHostPush]
@[simp] theorem State.afterHostPush_hist (s : State) (id : QId) : (s.afterHostPush id).hist = s.hist := by cases id <;> simp [State.afterHostPush]
@[simp] theorem State.afterHostPush_replies (s : State) (id : QId) : (s.afterHostPush id).replies = s.replies := by cases id <;> simp [State.afterHostPush]
@[simp] theorem State.afterHostPush_core (s : State) (id : QId) : (s.afterHostPush id).core = s.core := by cases id <;> simp [State.afterHostPush]
@[simp] theorem State.afterHostPush_sched (s : State) (id : QId) : (s.afterHostPush id).sched = s.sched := by cases id <;> simp [State.afterHostPush]
@[simp] theorem State.afterHostPush_issuer (s : State) (id : QId) : (s.afterHostPush id).issuer = s.issuer := by cases id <;> simp [State.afterHostPush]

@[simp] theorem State.txComplete_cfg (s : State) : (s.txComplete).cfg = s.cfg := by unfold State.txComplete; split <;> rfl
@[simp] theorem State.txComplete_bus (s : State) : (s.txComplete).bus = s.bus := by unfold State.txComplete; split <;> rfl
@[simp] theorem State.txComplete_shi (s : State) : (s.txComplete).shi = s.shi := by unfold State.txComplete; split <;> rfl
@[simp] theorem State.txComplete_embc (s : State) : (s.txComplete).embc = s.embc := by unfold State.txComplete; split <;> rfl
@[simp] theorem State.txComplete_dbg (s : State) : (s.txComplete).dbg = s.dbg := by unfold State.txComplete; split <;> rfl
@[simp] theorem State.txComplete_e (s : State) : (s.txComplete).e = s.e := by unfold State.txComplete; split <;> rfl
@[simp] theorem State.txComplete_hosts (s : State) : (s.txComplete).hosts = s.hosts := by unfold State.txComplete; split <;> rfl
@[simp] theorem State.txComplete_hist (s : State) : (s.txComplete).hist = s.hist := by unfold State.txComplete; split <;> rfl
@[simp] theorem State.txComplete_replies (s : State) : (s.txComplete).replies = s.replies := by unfold State.txComplete; split <;> rfl
@[simp] theorem State.txComplete_core (s : State) : (s.txComplete).core = s.core := by unfold State.txComplete; split <;> rfl
@[simp] theorem State.txComplete_sched (s : State) : (s.txComplete).sched = s.sched := by unfold State.txComplete; split <;> rfl
@[simp] theorem State.txComplete_issuer (s : State) : (s.txComplete).issuer = s.issuer := by unfold State.txComplete; split <;> rfl

@[simp] theorem State.esaiAccumulate_cfg (s : State) : (s.esaiAccumulate).cfg = s.cfg := by rfl
@[simp] theorem State.esaiAccumulate_bus (s : State) : (s.esaiAccumulate).bus = s.bus := by rfl
@[simp] theorem State.esaiAccumulate_shi (s : State) : (s.esaiAccumulate).shi = s.shi := by rfl
@[simp] theorem State.esaiAccumulate_embc (s : State) : (s.esaiAccumulate).embc = s.embc := by rfl
@[simp] theorem State.esaiAccumulate_dbg (s : State) : (s.esaiAccumulate).dbg = s.dbg := by rfl
@[simp] theorem State.esaiAccumulate_e (s : State) : (s.esaiAccumulate).e = s.e := by rfl
@[simp] theorem State.esaiAccumulate_hosts (s : State) : (s.esaiAccumulate).hosts = s.hosts := by rfl
@[simp] theorem State.esaiAccumulate_hist (s : State) : (s.esaiAccumulate).hist = s.hist := by rfl
@[simp] theorem State.esaiAccumulate_replies (s : State) : (s.esaiAccumulate).replies = s.replies := by rfl
@[simp] theorem State.esaiAccumulate_core (s : State) : (s.esaiAccumulate).core = s.core := by rfl
@[simp] theorem State.esaiAccumulate_sched (s : State) : (s.esaiAccumulate).sched = s.sched := by rfl
@[simp] theorem State.esaiAccumulate_issuer (s : State) : (s.esaiAccumulate).issuer = s.issuer := by rfl

@[simp] theorem State.esaiInterrupts_cfg (s : State) : (s.esaiInterrupts).cfg = s.cfg := by unfold State.esaiInterrupts; split <;> split <;> rfl
@[simp] theorem State.esaiInterrupts_bus (s : State) : (s.esaiInterrupts).bus = s.bus := by unfold State.esaiInterrupts; split <;> split <;> rfl
@[simp] theorem State.esaiInterrupts_shi (s : State) : (s.esaiInterrupts).shi = s.shi := by unfold State.esaiInterrupts; split <;> split <;> rfl
@[simp] theorem State.esaiInterrupts_esai (s : State) : (s.esaiInterrupts).esai = s.esai := by unfold State.esaiInterrupts; split <;> split <;> rfl
@[simp] theorem State.esaiInterrupts_embc (s : State) : (s.esaiInterrupts).embc = s.embc := by unfold State.esaiInterrupts; split <;> split <;> rfl
@[simp] theorem State.esaiInterrupts_dbg (s : State) : (s.esaiInterrupts).dbg = s.dbg := by unfold State.esaiInterrupts; split <;> split <;> rfl
@[simp] theorem State.esaiInterrupts_e (s : State) : (s.esaiInterrupts).e = s.e := by unfold State.esaiInterrupts; split <;> split <;> rfl
@[simp] theorem State.esaiInterrupts_hosts (s : State) : (s.esaiInterrupts).hosts = s.hosts := by unfold State.esaiInterrupts; split <;> split <;> rfl
@[simp] theorem State.esaiInterrupts_replies (s : State) : (s.esaiInterrupts).replies = s.replies := by unfold State.esaiInterrupts; split <;> split <;> rfl
@[simp] theorem State.esaiInterrupts_core (s : State) : (s.esaiInterrupts).core = s.core := by unfold State.esaiInterrupts; split <;> split <;> rfl
@[simp] theorem State.esaiInterrupts_sched (s : State) : (s.esaiInterrupts).sched = s.sched := by unfold State.esaiInterrupts; split <;> split <;> rfl
@[simp] theorem State.esaiInterrupts_issuer (s : State) : (s.esaiInterrupts).issuer = s.issuer := by unfold State.esaiInterrupts; split <;> split <;> rfl

@[simp] theorem State.esaiTickEnd_cfg (s : State) : (s.esaiTickEnd).cfg = s.cfg := by simp [State.esaiTickEnd]
@[simp] theorem State.esaiTickEnd_bus (s : State) : (s.esaiTickEnd).bus = s.bus := by simp [State.esaiTickEnd]
@[simp] theorem State.esaiTickEnd_shi (s : State) : (s.esaiTickEnd).shi = s.shi := by simp [State.esaiTickEnd]
@[simp] theorem State.esaiTickEnd_embc (s : State) : (s.esaiTickEnd).embc = s.embc := by simp [State.esaiTickEnd]
@[simp] theorem State.esaiTickEnd_dbg (s : State) : (s.esaiTickEnd).dbg = s.dbg := by simp [State.esaiTickEnd]
@[simp] theorem State.esaiTickEnd_e (s : State) : (s.esaiTickEnd).e = s.e := by simp [State.esaiTickEnd]
@[simp] theorem State.esaiTickEnd_hosts (s : State) : (s.esaiTickEnd).hosts = s.hosts := by simp [State.esaiTickEnd]
@[simp] theorem State.esaiTickEnd_replies (s : State) : (s.esaiTickEnd).replies = s.replies := by simp [State.esaiTickEnd]
@[simp] theorem State.esaiTickEnd_core (s : State) : (s.esaiTickEnd).core = s.core := by simp [State.esaiTickEnd]
@[simp] theorem State.esaiTickEnd_sched (s : State) : (s.esaiTickEnd).sched = s.sched := by simp [State.esaiTickEnd]
@[simp] theorem State.esaiTickEnd_issuer (s : State) : (s.esaiTickEnd).issuer = s.issuer := by simp [State.esaiTickEnd]

@[simp] theorem State.shiDeliverRx_cfg (s : State) : (s.shiDeliverRx).cfg = s.cfg := by unfold State.shiDeliverRx; dsimp only; split <;> (try split) <;> (try split) <;> rfl
@[simp] theorem State.shiDeliverRx_bus (s : State) : (s.shiDeliverRx).bus = s.bus := by unfold State.shiDeliverRx; dsimp only; split <;> (try split) <;> (try split) <;> rfl
@[simp] theorem State.shiDeliverRx_esai (s : State) : (s.shiDeliverRx).esai = s.esai := by unfold State.shiDeliverRx; dsimp only; split <;> (try split) <;> (try split) <;> rfl
@[simp] theorem State.shiDeliverRx_embc (s : State) : (s.shiDeliverRx).embc = s.embc := by unfold State.shiDeliverRx; dsimp only; split <;> (try split) <;> (try split) <;> rfl
@[simp] theorem State.shiDeliverRx_dbg (s : State) : (s.shiDeliverRx).dbg = s.dbg := by unfold State.shiDeliverRx; dsimp only; split <;> (try split) <;> (try split) <;> rfl
@[simp] theorem State.shiDeliverRx_e (s : State) : (s.shiDeliverRx).e = s.e := by unfold State.shiDeliverRx; dsimp only; split <;> (try split) <;> (try split) <;> rfl
@[simp] theorem State.shiDeliverRx_hosts (s : State) : (s.shiDeliverRx).hosts = s.hosts := by unfold State.shiDeliverRx; dsimp only; split <;> (try split) <;> (try split) <;> rfl
@[simp] theorem State.shiDeliverRx_replies (s : State) : (s.shiDeliverRx).replies = s.replies := by unfold State.shiDeliverRx; dsimp only; split <;> (try split) <;> (try split) <;> rfl
@[simp] theorem State.shiDeliverRx_core (s : State) : (s.shiDeliverRx).core = s.core := by unfold State.shiDeliverRx; dsimp only; split <;> (try split) <;> (try split) <;> rfl
@[simp] theorem State.shiDeliverRx_sched (s : State) : (s.shiDeliverRx).sched = s.sched := by unfold State.shiDeliverRx; dsimp only; split <;> (try split) <;> (try split) <;> rfl
@[simp] theorem State.shiDeliverRx_issuer (s : State) : (s.shiDeliverRx).issuer = s.issuer := by unfold State.shiDeliverRx; dsimp only; split <;> (try split) <;> (try split) <;> rfl

@[simp] theorem State.shiDeliverTx_cfg (s : State) : (s.shiDeliverTx).cfg = s.cfg := by rfl
@[simp] theorem State.shiDeliverTx_bus (s : State) : (s.shiDeliverTx).bus = s.bus := by rfl
@[simp] theorem State.shiDeliverTx_esai (s : State) : (s.shiDeliverTx).esai = s.esai := by rfl
@[simp] theorem State.shiDeliverTx_embc (s : State) : (s.shiDeliverTx).embc = s.embc := by rfl
@[simp] theorem State.shiDeliverTx_dbg (s : State) : (s.shiDeliverTx).dbg = s.dbg := by rfl
@[simp] theorem State.shiDeliverTx_e (s : State) : (s.shiDeliverTx).e = s.e := by rfl
@[simp] theorem State.shiDeliverTx_hosts (s : State) : (s.shiDeliverTx).hosts = s.hosts := by rfl
@[simp] theorem State.shiDeliverTx_replies (s : State) : (s.shiDeliverTx).replies = s.replies := by rfl
@[simp] theorem State.shiDeliverTx_core (s : State) : (s.shiDeliverTx).core = s.core := by rfl
@[simp] theorem State.shiDeliverTx_sched (s : State) : (s.shiDeliverTx).sched = s.sched := by rfl
@[simp] theorem State.shiDeliverTx_issuer (s : State) : (s.shiDeliverTx).issuer = s.issuer := by rfl

@[simp] theorem State.shiExec_cfg (s : State) : (s.shiExec).cfg = s.cfg := by unfold State.shiExec; (repeat' split) <;> simp
@[simp] theorem State.shiExec_bus (s : State) : (s.shiExec).bus = s.bus := by unfold State.shiExec; (repeat' split) <;> simp
@[simp] theorem State.shiExec_esai (s : State) : (s.shiExec).esai = s.esai := by unfold State.shiExec; (repeat' split) <;> simp
@[simp] theorem State.shiExec_embc (s : State) : (s.shiExec).embc = s.embc := by unfold State.shiExec; (repeat' split) <;> simp
@[simp] theorem State.shiExec_dbg (s : State) : (s.shiExec).dbg = s.dbg := by unfold State.shiExec; (repeat' split) <;> simp
@[simp] theorem State.shiExec_e (s : State) : (s.shiExec).e = s.e := by unfold State.shiExec; (repeat' split) <;> simp
@[simp] theorem State.shiExec_hosts (s : State) : (s.shiExec).hosts = s.hosts := by unfold State.shiExec; (repeat' split) <;> simp
@[simp] theorem State.shiExec_replies (s : State) : (s.shiExec).replies = s.replies := by unfold State.shiExec; (repeat' split) <;> simp
@[simp] theorem State.shiExec_core (s : State) : (s.shiExec).core = s.core := by unfold State.shiExec; (repeat' split) <;> simp
@[simp] theorem State.shiExec_sched (s : State) : (s.shiExec).sched = s.sched := by unfold State.shiExec; (repeat' split) <;> simp
@[simp] theorem State.shiExec_issuer (s : State) : (s.shiExec).issuer = s.issuer := by unfold State.shiExec; (repeat' split) <;> simp

@[simp] theorem State.rxState_cfg (s : State) (c : Fin 4) : (s.rxState c).cfg = s.cfg := by unfold State.rxState; split <;> rfl
@[simp] theorem State.rxState_bus (s : State) (c : Fin 4) : (s.rxState c).bus = s.bus := by unfold State.rxState; split <;> rfl
@[simp] theorem State.rxState_shi (s : State) (c : Fin 4) : (s.rxState c).shi = s.shi := by unfold State.rxState; split <;> rfl
@[simp] theorem State.rxState_esai (s : State) (c : Fin 4) : (s.rxState c).esai = s.esai := by unfold State.rxState; split <;> rfl
@[simp] theorem State.rxState_embc (s : State) (c : Fin 4) : (s.rxState c).embc = s.embc := by unfold State.rxState; split <;> rfl
@[simp] theorem State.rxState_dbg (s : State) (c : Fin 4) : (s.rxState c).dbg = s.dbg := by unfold State.rxState; split <;> rfl
@[simp] theorem State.rxState_e (s : State) (c : Fin 4) : (s.rxState c).e = s.e := by unfold State.rxState; split <;> rfl
@[simp] theorem State.rxState_hosts (s : State) (c : Fin 4) : (s.rxState c).hosts = s.hosts := by unfold State.rxState; split <;> rfl
@[simp] theorem State.rxState_replies (s : State) (c : Fin 4) : (s.rxState c).replies = s.replies := by unfold State.rxState; split <;> rfl
@[simp] theorem State.rxState_core (s : State) (c : Fin 4) : (s.rxState c).core = s.core := by unfold State.rxState; split <;> rfl
@[simp] theorem State.rxState_sched (s : State) (c : Fin 4) : (s.rxState c).sched = s.sched := by unfold State.rxState; split <;> rfl
@[simp] theorem State.rxState_issuer (s : State) (c : Fin 4) : (s.rxState c).issuer = s.issuer := by unfold State.rxState; split <;> rfl

/-! ### Queues of an update -/

/-- The queue just set is the one read. -/
@[simp] theorem State.setQueue_queue_self (s : State) (id : QId) (q : Queue) : (s.setQueue id q).queue id = q := by
  cases id <;> simp [State.setQueue, State.queue]

/-- Setting one queue leaves every other. -/
theorem State.setQueue_queue_ne (s : State) {id id' : QId} (q : Queue) (h : id' ≠ id) :
    (s.setQueue id q).queue id' = s.queue id' := by
  cases id with
  | shiRx => cases id' <;> first | rfl | exact absurd rfl h
  | shiTx => cases id' <;> first | rfl | exact absurd rfl h
  | out c =>
    cases id' with
    | out d =>
      have hv : c.val ≠ d.val := fun e => h (congrArg QId.out (Fin.ext e.symm))
      simp [State.setQueue, State.queue, hv]
    | _ => rfl
  | inp c =>
    cases id' with
    | inp d =>
      have hv : c.val ≠ d.val := fun e => h (congrArg QId.inp (Fin.ext e.symm))
      simp [State.setQueue, State.queue, hv]
    | _ => rfl

/-- A queue after one is set. -/
theorem State.setQueue_queue (s : State) (id id' : QId) (q : Queue) :
    (s.setQueue id q).queue id' = if id' = id then q else s.queue id' := by
  by_cases h : id' = id
  · subst h; simp
  · simp [h, State.setQueue_queue_ne s q h]

/-- A queue after one is shut. -/
theorem State.shutQueue_queue (s : State) (id id' : QId) :
    (s.shutQueue id).queue id' = if id' = id then (s.queue id).shutdown else s.queue id' := by
  simp [State.shutQueue, State.setQueue_queue]

@[simp] theorem State.setAreaMem_queue (s : State) (a : Area) (m : Memory) (id : QId) : (s.setAreaMem a m).queue id = s.queue id := by cases a <;> cases id <;> rfl
@[simp] theorem State.setBacking_queue (s : State) (a : Area) (off v : Word) (id : QId) : (s.setBacking a off v).queue id = s.queue id := by simp [State.setBacking]
@[simp] theorem State.memReadState_queue (s : State) (a : Area) (off : Word) (id : QId) : (s.memReadState a off).queue id = s.queue id := by unfold State.memReadState; split <;> simp
@[simp] theorem State.memWrite_queue (s : State) (a : Area) (off v : Word) (id : QId) : (s.memWrite a off v).queue id = s.queue id := by unfold State.memWrite; split <;> simp
@[simp] theorem State.countRx_queue (s : State) (id : QId) : (s.countRx).queue id = s.queue id := by unfold State.countRx; split <;> cases id <;> rfl
@[simp] theorem State.txComplete_queue (s : State) (id : QId) : (s.txComplete).queue id = s.queue id := by unfold State.txComplete; split <;> cases id <;> rfl
@[simp] theorem State.esaiAccumulate_queue (s : State) (id : QId) : (s.esaiAccumulate).queue id = s.queue id := by cases id <;> rfl
@[simp] theorem State.esaiInterrupts_queue (s : State) (id : QId) : (s.esaiInterrupts).queue id = s.queue id := by unfold State.esaiInterrupts; split <;> split <;> simp
@[simp] theorem State.esaiTickEnd_queue (s : State) (id : QId) : (s.esaiTickEnd).queue id = s.queue id := by simp [State.esaiTickEnd]
@[simp] theorem State.shiDeliverTx_queue (s : State) (id : QId) : (s.shiDeliverTx).queue id = s.queue id := by cases id <;> rfl
@[simp] theorem State.shiDeliverRx_queue (s : State) (id : QId) : (s.shiDeliverRx).queue id = s.queue id := by unfold State.shiDeliverRx; dsimp only; split <;> (try split) <;> (try split) <;> cases id <;> rfl
@[simp] theorem State.shiExec_queue (s : State) (id : QId) : (s.shiExec).queue id = s.queue id := by unfold State.shiExec; (repeat' split) <;> simp
@[simp] theorem State.rxState_queue (s : State) (c : Fin 4) (id : QId) : (s.rxState c).queue id = s.queue id := by unfold State.rxState; split <;> simp
@[simp] theorem State.afterHostPush_queue (s : State) (j : QId) (id : QId) : (s.afterHostPush j).queue id = s.queue id := by cases j <;> simp [State.afterHostPush]

end Sys2Proof.Machine
end

