-- ==== Sys2Proof/Laws/Ops.lean ====
section
/-! SUPPORT. The shared operations: one lemma for each that says all it can do. -/

namespace Sys2Proof.Machine

/-! ### Queue primitives -/

/-- `Push` on an open queue with room (42_queue.md R271). -/
theorem Queue.push_ok (q : Queue) (v : Word) (h : q.shut = false) (hl : q.items.length < Config.qcap) :
    q.push v = .ok { items := q.items ++ [v], shut := false } := by
  simp [Queue.push, h, hl]

/-- `Push` on an open full queue (42_queue.md R271). -/
theorem Queue.push_block (q : Queue) (v : Word) (h : q.shut = false) (hl : Config.qcap ≤ q.items.length) :
    q.push v = .block := by
  simp [Queue.push, h, Nat.not_lt.2 hl]

/-- `Push` on a shut queue (42_queue.md R271). -/
theorem Queue.push_shut (q : Queue) (v : Word) (h : q.shut = true) : q.push v = .shut := by
  simp [Queue.push, h]

/-- `Pop` on an open queue with a word (42_queue.md R272). -/
theorem Queue.pop_ok (q : Queue) (w : Word) (ws : List Word) (h : q.shut = false) (hl : q.items = w :: ws) :
    q.pop = .ok (w, { items := ws, shut := false }) := by
  simp [Queue.pop, h, hl]

/-- `Pop` on an open empty queue (42_queue.md R272). -/
theorem Queue.pop_block (q : Queue) (h : q.shut = false) (hl : q.items = []) : q.pop = .block := by
  simp [Queue.pop, h, hl]

/-- `Pop` on a shut queue (42_queue.md R272). -/
theorem Queue.pop_shut (q : Queue) (h : q.shut = true) : q.pop = .shut := by
  simp [Queue.pop, h]

/-- `TryPop` on an open queue: the oldest word if there is one (42_queue.md R275). -/
theorem Queue.tryPop_open (q : Queue) (h : q.shut = false) :
    q.tryPop = some (q.items.head?, { items := q.items.tail, shut := false }) := by
  obtain ⟨items, shut⟩ := q
  subst h
  cases items <;> rfl

/-- `TryPop` on a shut queue (42_queue.md R275). -/
theorem Queue.tryPop_shut (q : Queue) (h : q.shut = true) : q.tryPop = none := by
  simp [Queue.tryPop, h]

/-! ### Parts of E's transactions -/

section
variable {α β : Type}

@[simp] theorem Res.bind_done (a : α) (s : State) (k : α → State → Res β) : (Res.done a s).bind k = k a s := rfl
@[simp] theorem Res.bind_hold (p : HoldPoint) (s : State) (k : α → State → Res β) : (Res.hold p s).bind k = .hold p s := rfl
@[simp] theorem Res.bind_abort (s : State) (k : α → State → Res β) : (Res.abort s).bind k = .abort s := rfl
@[simp] theorem Res.bind_fault (f : Fault) (k : α → State → Res β) : (Res.fault f).bind k = .fault f := rfl
@[simp] theorem Res.map_done (g : α → β) (a : α) (s : State) : (Res.done a s).map g = .done (g a) s := rfl
@[simp] theorem Res.map_hold (g : α → β) (p : HoldPoint) (s : State) : (Res.hold p s).map g = .hold p s := rfl
@[simp] theorem Res.map_abort (g : α → β) (s : State) : (Res.abort s).map g = .abort s := rfl
@[simp] theorem Res.map_fault (g : α → β) (f : Fault) : (Res.fault f).map g = .fault f := rfl
@[simp] theorem Res.outcome_done (fr : Frame) (k : α → State → Out) (a : α) (s : State) :
    (Res.done a s).outcome fr k = k a s := rfl
@[simp] theorem Res.outcome_hold (fr : Frame) (k : α → State → Out) (p : HoldPoint) (s : State) :
    (Res.hold p s).outcome fr k = .next (s.holdE (.queue p fr)) := rfl
@[simp] theorem Res.outcome_abort (fr : Frame) (k : α → State → Out) (s : State) :
    (Res.abort s).outcome fr k = .next s.abortE := rfl
@[simp] theorem Res.outcome_fault (fr : Frame) (k : α → State → Out) (f : Fault) :
    (Res.fault f).outcome fr k = .fault f := rfl
@[simp] theorem Res.endE_done (r : Result) (s : State) : (Res.done r s).endE = .next (s.doneE r) := rfl
@[simp] theorem Res.endE_hold (p : HoldPoint) (s : State) :
    (Res.hold p s : Res Result).endE = .next (s.holdE (.queue p .bare)) := rfl
@[simp] theorem Res.endE_abort (s : State) : (Res.abort s : Res Result).endE = .next s.abortE := rfl
@[simp] theorem Res.endE_fault (f : Fault) : (Res.fault f : Res Result).endE = .fault f := rfl

/-- Two parts in a row, and a third. -/
theorem Res.bind_assoc {γ : Type} (r : Res α) (k : α → State → Res β) (l : β → State → Res γ) :
    (r.bind k).bind l = r.bind fun a s => (k a s).bind l := by
  cases r <;> rfl

end

/-- All that `pushAt` can do (42_queue.md R271). -/
theorem pushAt_cases (p : HoldPoint) (id : QId) (v : Word) (s : State) :
    ((s.queue id).shut = false ∧ (s.queue id).items.length < Config.qcap ∧
      pushAt p id v s = .done () (s.setQueue id { items := (s.queue id).items ++ [v], shut := false })) ∨
    ((s.queue id).shut = false ∧ Config.qcap ≤ (s.queue id).items.length ∧ pushAt p id v s = .hold p s) ∨
    ((s.queue id).shut = true ∧ pushAt p id v s = .abort s) := by
  cases h : (s.queue id).shut
  · by_cases hl : (s.queue id).items.length < Config.qcap
    · exact .inl ⟨rfl, hl, by simp [pushAt, Queue.push_ok _ v h hl]⟩
    · exact .inr (.inl ⟨rfl, Nat.not_lt.1 hl, by simp [pushAt, Queue.push_block _ v h (Nat.not_lt.1 hl)]⟩)
  · exact .inr (.inr ⟨rfl, by simp [pushAt, Queue.push_shut _ v h]⟩)

/-- All that `popAt` can do (42_queue.md R272). -/
theorem popAt_cases (p : HoldPoint) (id : QId) (s : State) :
    (∃ w ws, s.queue id = { items := w :: ws, shut := false } ∧
      popAt p id s = .done w (s.setQueue id { items := ws, shut := false })) ∨
    (s.queue id = { items := [], shut := false } ∧ popAt p id s = .hold p s) ∨
    ((s.queue id).shut = true ∧ popAt p id s = .abort s) := by
  rcases hq : s.queue id with ⟨items, _ | _⟩
  · cases items with
    | nil => exact .inr (.inl ⟨rfl, by simp [popAt, hq, Queue.pop]⟩)
    | cons w ws => exact .inl ⟨w, ws, rfl, by simp [popAt, hq, Queue.pop]⟩
  · exact .inr (.inr ⟨rfl, by simp [popAt, hq, Queue.pop]⟩)

/-- All that a capture from an input queue can do (42_queue.md R275, 43_esai.md R315). -/
theorem esaiCapture_cases (c : Fin 4) (s : State) :
    ((s.queue (.inp c)).shut = false ∧
      esaiCapture c s = .done () ((s.setQueue (.inp c) { items := (s.queue (.inp c)).items.tail, shut := false }).setRxw c
        ((s.queue (.inp c)).items.headD 0))) ∨
    ((s.queue (.inp c)).shut = true ∧ esaiCapture c s = .abort s) := by
  cases h : (s.queue (.inp c)).shut
  · refine .inl ⟨rfl, ?_⟩
    simp only [esaiCapture, Queue.tryPop_open _ h]
    cases (s.queue (.inp c)).items <;> rfl
  · exact .inr ⟨rfl, by simp [esaiCapture, Queue.tryPop_shut _ h]⟩

/-- All that a bit-test read of HRX can do (42_queue.md R273, 44_shi.md R385). -/
theorem readHrxBitTest_cases (s : State) :
    (∃ w ws, s.shi.rxq.items = w :: ws ∧ readHrxBitTest s = .done w s) ∨
    (s.shi.rxq.items = [] ∧ readHrxBitTest s = .fault .peekEmpty) := by
  cases h : s.shi.rxq.items with
  | nil => exact .inr ⟨rfl, by simp [readHrxBitTest, State.queue, Queue.front, h]⟩
  | cons w ws => exact .inl ⟨w, ws, rfl, by simp [readHrxBitTest, State.queue, Queue.front, h]⟩

/-! ### Host transactions -/

/-- All that a host's push can do (47_host_streams.md R500, R501, R503, R506). -/
theorem hostRun_push_cases (ag : Agent) (id : QId) (v : Word) (s : State) :
    ((s.queue id).shut = false ∧ (s.queue id).items.length < Config.qcap ∧
      hostRun ag (.push id v) s = .next (((s.setQueue id { items := (s.queue id).items ++ [v], shut := false }).afterHostPush
        id).reply ag (.done .unit))) ∨
    ((s.queue id).shut = false ∧ Config.qcap ≤ (s.queue id).items.length ∧
      hostRun ag (.push id v) s = .next (s.holdHost ag (.push id v))) ∨
    ((s.queue id).shut = true ∧ hostRun ag (.push id v) s = .next (s.reply ag (.done .endOfStream))) := by
  cases h : (s.queue id).shut
  · by_cases hl : (s.queue id).items.length < Config.qcap
    · exact .inl ⟨rfl, hl, by simp [hostRun, hostTry, Queue.push_ok _ v h hl]⟩
    · exact .inr (.inl ⟨rfl, Nat.not_lt.1 hl, by simp [hostRun, hostTry, Queue.push_block _ v h (Nat.not_lt.1 hl)]⟩)
  · exact .inr (.inr ⟨rfl, by simp [hostRun, hostTry, Queue.push_shut _ v h]⟩)

/-- All that a host's pop can do (47_host_streams.md R500, R502, R504, R506). -/
theorem hostRun_pop_cases (ag : Agent) (id : QId) (s : State) :
    (∃ w ws, s.queue id = { items := w :: ws, shut := false } ∧
      hostRun ag (.pop id) s = .next ((s.setQueue id { items := ws, shut := false }).reply ag (.done (.word w)))) ∨
    (s.queue id = { items := [], shut := false } ∧ hostRun ag (.pop id) s = .next (s.holdHost ag (.pop id))) ∨
    ((s.queue id).shut = true ∧ hostRun ag (.pop id) s = .next (s.reply ag (.done .endOfStream))) := by
  rcases hq : s.queue id with ⟨items, _ | _⟩
  · cases items with
    | nil => exact .inr (.inl ⟨rfl, by simp [hostRun, hostTry, hq, Queue.pop]⟩)
    | cons w ws => exact .inl ⟨w, ws, rfl, by simp [hostRun, hostTry, hq, Queue.pop]⟩
  · exact .inr (.inr ⟨rfl, by simp [hostRun, hostTry, hq, Queue.pop]⟩)

/-! ### The breakpoint set -/

/-- The addresses of the set after one is added (45_debugger.md R431). -/
theorem mem_bpInsert (a b : Word) (l : List Word) : b ∈ bpInsert a l ↔ b = a ∨ b ∈ l := by
  induction l with
  | nil => simp [bpInsert]
  | cons c r ih =>
    simp only [bpInsert]
    split
    · simp
    · split
      · rename_i h; subst h; simp
      · simp [ih]; tauto

/-- The addresses of the set after one is taken out (45_debugger.md R432). -/
theorem mem_bpErase (a b : Word) (l : List Word) : b ∈ bpErase a l ↔ b ≠ a ∧ b ∈ l := by
  simp [bpErase, and_comm]

/-- Adding an address keeps the set's canonical form. -/
theorem bpInsert_wf (a : Word) (l : List Word) (h : bpsWf l = true) : bpsWf (bpInsert a l) = true := by
  simp only [bpsWf, decide_eq_true_eq] at h ⊢
  induction l with
  | nil => simp [bpInsert]
  | cons c r ih =>
    have hp := List.pairwise_cons.1 h
    simp only [bpInsert]
    split
    · rename_i hlt
      refine List.pairwise_cons.2 ⟨fun b hb => ?_, h⟩
      rcases List.mem_cons.1 hb with hb | hb
      · simpa [hb] using hlt
      · exact lt_trans hlt (hp.1 b hb)
    · split
      · exact h
      · rename_i h1 h2
        refine List.pairwise_cons.2 ⟨fun b hb => ?_, ih hp.2⟩
        rcases (mem_bpInsert a b r).1 hb with hb | hb
        · subst hb
          have : b.toNat ≠ c.toNat := fun e => h2 (BitVec.toNat_inj.1 e)
          omega
        · exact hp.1 b hb

/-- Taking an address out keeps the set's canonical form. -/
theorem bpErase_wf (a : Word) (l : List Word) (h : bpsWf l = true) : bpsWf (bpErase a l) = true := by
  simp only [bpsWf, decide_eq_true_eq] at h ⊢
  exact h.filter _

end Sys2Proof.Machine
end

