-- ==== Sys2Proof/Laws/Bus.lean ====
section
/-! SUPPORT. The bus: what a read or write of a mapped or an unmapped pair is, and how EXEC's fan-out goes whatever the
registration order. -/

namespace Sys2Proof.Machine

/-- A bus read of a mapped pair is its register's read rule (41_bus.md R232). -/
theorem busRead_mapped {s : State} (hm : s.Mapped) {a : Area} {off : Word} {r : Reg} (h : regAt a off = some r) (k : Kind) :
    busRead a off k s = readReg r k s := by
  unfold State.Mapped at hm
  unfold regAt at h
  simp [busRead, hm, h]

/-- A bus read of an unmapped pair is a backing read (41_bus.md R233). -/
theorem busRead_unmapped {s : State} (hm : s.Mapped) {a : Area} {off : Word} (h : regAt a off = none) (k : Kind) :
    busRead a off k s = .done (s.memReadWord a off) (s.memReadState a off) := by
  unfold State.Mapped at hm
  unfold regAt at h
  simp [busRead, hm, h]

/-- A bus write of a mapped pair is its register's write rule (41_bus.md R234). -/
theorem busWrite_mapped {s : State} (hm : s.Mapped) {a : Area} {off : Word} {r : Reg} (h : regAt a off = some r) (v : Nat) :
    busWrite a off v s = writeReg r (trunc24 v) s := by
  unfold State.Mapped at hm
  unfold regAt at h
  simp [busWrite, hm, h]

/-- A bus write of an unmapped pair is a backing write (41_bus.md R235). -/
theorem busWrite_unmapped {s : State} (hm : s.Mapped) {a : Area} {off : Word} (h : regAt a off = none) (v : Nat) :
    busWrite a off v s = .done () (s.memWrite a off (trunc24 v)) := by
  unfold State.Mapped at hm
  unfold regAt at h
  simp [busWrite, hm, h]

/-- The registers' addresses are in the map (10_state.md R62). -/
theorem regAt_regAddr (r : Reg) : regAt (regAddr r).1 (regAddr r).2 = some r := by
  cases r with
  | tx c => revert c; decide
  | rx c => revert c; decide
  | _ => decide

/-- A mapped pair is the address of its register (10_state.md R62). -/
theorem regAddr_of_regAt {a : Area} {off : Word} {r : Reg} (h : regAt a off = some r) : regAddr r = (a, off) := by
  have hall : ∀ p ∈ regTable, regAddr p.2 = p.1 := by decide
  obtain ⟨l1, l2, h1, -⟩ := List.lookup_eq_some_iff.1 h
  exact hall ((a, off), r) (by rw [h1]; simp)

/-- Whatever row a bus read decodes to, its meaning is the bus read (30_encoding.md R150, 41_bus.md R232). -/
theorem exec_decodeRead (a : Area) (k : Kind) (off : Word) (s : State) :
    exec (decodeRead a k off) s = execBusRead a off k s := by
  unfold decodeRead
  split <;> rename_i h
  all_goals try
    have h2 := regAddr_of_regAt h
    simp only [regAddr, Prod.mk.injEq] at h2
    obtain ⟨rfl, rfl⟩ := h2
    first
      | rfl
      | (cases k <;> rfl)
  rfl

/-- Whatever row a bus write decodes to, its meaning is the bus write (30_encoding.md R150, 41_bus.md R234). -/
theorem exec_decodeWrite (a : Area) (off : Word) (v : Nat) (s : State) :
    exec (decodeWrite a off v) s = execBusWrite a off v s := by
  unfold decodeWrite
  split <;> rename_i h
  all_goals try
    have h2 := regAddr_of_regAt h
    simp only [regAddr, Prod.mk.injEq] at h2
    obtain ⟨rfl, rfl⟩ := h2
    rfl
  rfl

/-! ### The fan-out of EXEC -/

/-- The peripheral's `exec()` does something. -/
def activePeriph (p : Periph) : Bool := decide (p = .shi ∨ p = .esai)

/-- The peripherals that come before the ESAI in `bus.list` (41_bus.md R230). -/
def beforeEsai (o : PeriphOrder) : List Periph := (periphList o).take ((periphList o).idxOf .esai)

/-- The registration order is what stands before the ESAI, the ESAI, and what stands after it, with the SHI once, on the side that
`shiFirst` says. -/
theorem periphList_split (o : PeriphOrder) :
    periphList o = beforeEsai o ++ .esai :: afterEsai o ∧
    (beforeEsai o).filter activePeriph = (if shiFirst o then [.shi] else []) ∧
    (afterEsai o).filter activePeriph = if shiFirst o then [] else [.shi] := by
  have h : ∀ (a : Fin 5) (b : Fin 4) (c : Fin 3) (d : Fin 2),
      periphList ⟨a, b, c, d⟩ = beforeEsai ⟨a, b, c, d⟩ ++ .esai :: afterEsai ⟨a, b, c, d⟩ ∧
      (beforeEsai ⟨a, b, c, d⟩).filter activePeriph = (if shiFirst ⟨a, b, c, d⟩ then [.shi] else []) ∧
      (afterEsai ⟨a, b, c, d⟩).filter activePeriph = if shiFirst ⟨a, b, c, d⟩ then [] else [.shi] := by decide
  exact h o.first o.second o.third o.fourth

/-- A part with no result, followed by nothing. -/
theorem Res.bind_unit (r : Res Unit) : (r.bind fun _ s => .done () s) = r := by
  cases r <;> rfl

/-- The SHI tick, if the list has the SHI; with no ESAI in it that is all the fan-out does (46_ancillary.md R478). -/
theorem fanOut_append (l l' : List Periph) (b : Bool) (h : l.filter activePeriph = if b then [.shi] else []) (s : State) :
    fanOut (l ++ l') s = fanOut l' (if b then s.shiExec else s) := by
  induction l generalizing s b with
  | nil => cases b <;> simp_all
  | cons p ps ih =>
    cases p with
    | shi =>
      cases b
      · simp [activePeriph] at h
      · exact ih false (by simpa [activePeriph] using h) s.shiExec
    | esai => cases b <;> simp [activePeriph] at h
    | cgm => exact ih b (by simpa [activePeriph] using h) s
    | ccm => exact ih b (by simpa [activePeriph] using h) s
    | chid => exact ih b (by simpa [activePeriph] using h) s

/-- The fan-out over the peripherals after the ESAI: the SHI tick, unless it came before (41_bus.md R236). -/
theorem fanOut_afterEsai (o : PeriphOrder) (s : State) :
    fanOut (afterEsai o) s = .done () (if shiFirst o then s else s.shiExec) := by
  have h := fanOut_append (afterEsai o) [] (!shiFirst o) (by rw [(periphList_split o).2.2]; cases shiFirst o <;> rfl) s
  rw [List.append_nil] at h
  rw [h]
  cases shiFirst o <;> rfl

/-- EXEC's fan-out is the two ticks, in the order of registration (41_bus.md R236). -/
theorem execAll_eq (s : State) :
    execAll s = (esaiExec (afterEsai s.cfg.order) (if shiFirst s.cfg.order then s.shiExec else s)).bind
      fun _ t => .done () (if shiFirst s.cfg.order then t else t.shiExec) := by
  unfold execAll
  rw [(periphList_split s.cfg.order).1, fanOut_append _ _ _ (periphList_split s.cfg.order).2.1]
  show (esaiExec _ _).bind (fun _ t => fanOut _ t) = _
  simp only [fanOut_afterEsai]

/-- RESET sets the bound flag and nothing else (41_bus.md R237, 70_reset_and_hazards.md R581). -/
theorem State.resetAll_eq (s : State) : s.resetAll = { s with bus := { s.bus with bound := true } } := by
  have h : ∀ (l : List Periph) (t : State), l.foldl (fun s p => periphReset p s) t = t := by
    intro l
    induction l with
    | nil => intro t; rfl
    | cons p ps ih => intro t; cases p <;> exact ih t
  exact h _ _

end Sys2Proof.Machine
end

