-- ==== Sys2Proof/Laws/Memory.lean ====
section
/-! SUPPORT. The backing memory: reading after a write, and the canonical form that every memory operation keeps. -/

namespace Sys2Proof.Machine

/-- The look-up after an entry is removed. -/
theorem cellsErase_lookup (m : Memory) (a b : Nat) :
    (cellsErase a m).lookup b = if b = a then none else m.lookup b := by
  induction m with
  | nil => simp [cellsErase]
  | cons p r ih =>
    obtain ⟨k, w⟩ := p
    unfold cellsErase at ih ⊢
    rw [List.filter_cons]
    by_cases hk : k = a
    · subst hk
      simp only [ne_eq, not_true, decide_false, Bool.false_eq_true, if_false, ih]
      by_cases hb : b = k
      · simp [hb]
      · have hb' : (b == k) = false := by simp [hb]
        simp only [List.lookup, hb']
    · simp only [ne_eq, hk, not_false_eq_true, decide_true, if_true]
      by_cases hb : b = k
      · subst hb; simp [hk]
      · have hb' : (b == k) = false := by simp [hb]
        simp only [List.lookup, hb', ih]

/-- The look-up of an offset after an entry is set. -/
theorem cellsInsert_lookup (m : Memory) (a b : Nat) (v : Word) :
    (cellsInsert a v m).lookup b = if b = a then some v else m.lookup b := by
  induction m with
  | nil =>
    by_cases h : b = a
    · simp [cellsInsert, h]
    · have hb : (b == a) = false := by simp [h]
      simp only [cellsInsert, List.lookup, hb, h, if_false]
  | cons p r ih =>
    obtain ⟨k, w⟩ := p
    by_cases h : b = a
    · subst h
      simp only [cellsInsert, if_true]
      split
      · simp
      · split
        · simp
        · rename_i h2
          have hb : (b == k) = false := by simp [h2]
          simp only [List.lookup, hb, ih, if_true]
    · have hb : (b == a) = false := by simp [h]
      simp only [cellsInsert, h, if_false]
      split
      · simp only [List.lookup, hb]
      · split
        · rename_i h2
          subst h2
          simp only [List.lookup, hb]
        · simp only [List.lookup, ih, h, if_false]

/-- The word at an offset after one is stored: the stored word there, every other as before. -/
theorem Memory.get_put (m : Memory) (init v : Word) (a b : Nat) (init' : Word) (hi : b = a → init' = init) :
    (m.put init a v).get init' b = if b = a then v else m.get init' b := by
  unfold Memory.put Memory.get
  split
  · rename_i hv
    rw [cellsErase_lookup]
    by_cases hb : b = a
    · simp [hb, hv, hi hb]
    · simp [hb]
  · rw [cellsInsert_lookup]
    by_cases hb : b = a <;> simp [hb]

/-- An entry of the list with one removed is an entry of the list. -/
theorem mem_cellsErase {m : Memory} {a : Nat} {p : Nat × Word} (h : p ∈ cellsErase a m) : p ∈ m :=
  (List.mem_filter.1 h).1

/-- An entry of the list with one set is that one or an entry of the list. -/
theorem mem_cellsInsert {m : Memory} {a : Nat} {v : Word} {p : Nat × Word} (h : p ∈ cellsInsert a v m) :
    p = (a, v) ∨ p ∈ m := by
  induction m with
  | nil => simpa [cellsInsert] using h
  | cons q r ih =>
    obtain ⟨k, w⟩ := q
    simp only [cellsInsert] at h
    split at h
    · rcases List.mem_cons.1 h with h | h
      · exact .inl h
      · exact .inr h
    · split at h
      · rcases List.mem_cons.1 h with h | h
        · exact .inl h
        · exact .inr (List.mem_cons_of_mem _ h)
      · rcases List.mem_cons.1 h with h | h
        · exact .inr (by simp [h])
        · rcases ih h with h | h
          · exact .inl h
          · exact .inr (List.mem_cons_of_mem _ h)

/-- Removing an entry keeps the offsets rising. -/
theorem cellsErase_pairwise (m : Memory) (a : Nat) (h : m.Pairwise (fun p q => p.1 < q.1)) :
    (cellsErase a m).Pairwise (fun p q => p.1 < q.1) :=
  h.filter _

/-- Setting an entry keeps the offsets rising. -/
theorem cellsInsert_pairwise (m : Memory) (a : Nat) (v : Word) (h : m.Pairwise (fun p q => p.1 < q.1)) :
    (cellsInsert a v m).Pairwise (fun p q => p.1 < q.1) := by
  induction m with
  | nil => simp [cellsInsert]
  | cons q r ih =>
    obtain ⟨k, w⟩ := q
    have hp := List.pairwise_cons.1 h
    simp only [cellsInsert]
    split
    · rename_i hlt
      refine List.pairwise_cons.2 ⟨fun p hm => ?_, h⟩
      rcases List.mem_cons.1 hm with hm | hm
      · simpa [hm] using hlt
      · exact lt_trans hlt (hp.1 p hm)
    · split
      · rename_i _ he
        subst he
        exact List.pairwise_cons.2 ⟨hp.1, hp.2⟩
      · refine List.pairwise_cons.2 ⟨fun p hm => ?_, ih hp.2⟩
        rcases mem_cellsInsert hm with hm | hm
        · subst hm; simp only; omega
        · exact hp.1 p hm

/-- The canonical form, as a proposition. -/
theorem Memory.wf_iff (m : Memory) (bound : Nat) (init : Nat → Word) :
    m.wf bound init = true ↔
      m.Pairwise (fun p q => p.1 < q.1) ∧ ∀ p ∈ m, p.1 < bound ∧ p.2 ≠ init p.1 := by
  simp [Memory.wf, List.all_eq_true]

/-- A store in range keeps the canonical form. -/
theorem Memory.put_wf (m : Memory) (bound : Nat) (init : Nat → Word) (a : Nat) (v : Word)
    (h : m.wf bound init = true) (ha : a < bound) : (m.put (init a) a v).wf bound init = true := by
  rw [Memory.wf_iff] at h ⊢
  unfold Memory.put
  split
  · exact ⟨cellsErase_pairwise m a h.1, fun p hp => h.2 p (mem_cellsErase hp)⟩
  · rename_i hv
    refine ⟨cellsInsert_pairwise m a v h.1, fun p hp => ?_⟩
    rcases mem_cellsInsert hp with hp | hp
    · subst hp; exact ⟨ha, hv⟩
    · exact h.2 p hp

/-- The empty memory is in canonical form. -/
theorem Memory.wf_nil (bound : Nat) (init : Nat → Word) : Memory.wf [] bound init = true := by
  simp [Memory.wf]

/-- The memories are in canonical form after reset. -/
theorem reset_memory_wf :
    State.reset.bus.memX.wf State.reset.cfg.backingWords (initialWord State.reset.cfg .x) = true ∧
    State.reset.bus.memY.wf State.reset.cfg.backingWords (initialWord State.reset.cfg .y) = true :=
  ⟨Memory.wf_nil _ _, Memory.wf_nil _ _⟩

/-- Every area's memory is canonical. -/
def State.MemWf (s : State) : Prop :=
  ∀ a, (s.areaMem a).wf s.cfg.backingWords (initialWord s.cfg a) = true

/-- `MemWrite` keeps the canonical form (20_memory.md R105). -/
theorem State.memWrite_memWf (s : State) (a : Area) (off v : Word) (h : s.MemWf) : (s.memWrite a off v).MemWf := by
  unfold State.memWrite
  split
  · rename_i hr
    have hr' : off.toNat < s.cfg.backingWords := by simpa [State.inRange] using hr
    intro b
    have ha := Memory.put_wf (s.areaMem a) s.cfg.backingWords (initialWord s.cfg a) off.toNat v (h a) hr'
    cases a <;> cases b <;> first | exact ha | exact h .x | exact h .y
  · exact h

/-- The word at an (area, offset) pair after one is stored: the stored word there, every other as before, whatever form the
memory has. -/
theorem State.setBacking_backing (s : State) (a b : Area) (off off' v : Word) :
    (s.setBacking a off v).backing b off' = if b = a ∧ off' = off then v else s.backing b off' := by
  have e : off' = off ↔ off'.toNat = off.toNat := BitVec.toNat_inj.symm
  by_cases hb : b = a
  · subst hb
    have := Memory.get_put (s.areaMem b) (initialWord s.cfg b off.toNat) v off.toNat off'.toNat
      (initialWord s.cfg b off'.toNat) (fun hh => by rw [hh])
    simp only [true_and, e]
    cases b <;> exact this
  · simp only [hb, false_and, if_false]
    cases a <;> cases b <;> first | exact absurd rfl hb | rfl

end Sys2Proof.Machine
end

