-- ==== Sys2Proof/Laws/PerInstr.lean ====
section
/-! SUPPORT. The code and its fields are one to one; what the decoder reads from each shape of code; and, per constructor, that
the decoder undoes the encoder. -/

namespace Sys2Proof

/-- The code as a number (30_encoding.md R141). -/
theorem toNat_codeOf (f : Fields) :
    (codeOf f).toNat =
      f.op.toNat * 2 ^ 28 + f.area.toNat * 2 ^ 27 + f.kind.toNat * 2 ^ 26 + f.rsv.toNat * 2 ^ 24 + f.arg.toNat := by
  have h1 := f.area.isLt
  have h2 := f.kind.isLt
  have h3 := f.rsv.isLt
  have h4 := f.arg.isLt
  have : (codeOf f).toNat =
      ((((f.op.toNat <<< 1 ||| f.area.toNat) <<< 1 ||| f.kind.toNat) <<< 2 ||| f.rsv.toNat) <<< 24 ||| f.arg.toNat) := by
    rw [← BitVec.toNat_append, ← BitVec.toNat_append, ← BitVec.toNat_append, ← BitVec.toNat_append]; rfl
  rw [this, ← Nat.shiftLeft_add_eq_or_of_lt h1, ← Nat.shiftLeft_add_eq_or_of_lt h2, ← Nat.shiftLeft_add_eq_or_of_lt h3,
    ← Nat.shiftLeft_add_eq_or_of_lt h4]
  simp only [Nat.shiftLeft_eq]
  omega

/-- The fields of the code of some fields are these fields. -/
theorem fieldsOf_codeOf (f : Fields) : fieldsOf (codeOf f) = f := by
  have h := toNat_codeOf f
  have h0 := f.op.isLt
  have h1 := f.area.isLt
  have h2 := f.kind.isLt
  have h3 := f.rsv.isLt
  have h4 := f.arg.isLt
  rcases f with ⟨a, b, c, d, e⟩
  simp only [fieldsOf, Fields.mk.injEq]
  simp only at h h0 h1 h2 h3 h4
  refine ⟨?_, ?_, ?_, ?_, ?_⟩ <;>
    (apply BitVec.eq_of_toNat_eq
     rw [BitVec.extractLsb'_toNat, h]
     simp only [Nat.shiftRight_eq_div_pow]
     omega)

/-- The code of the fields of a code is that code. -/
theorem codeOf_fieldsOf (c : Code) : codeOf (fieldsOf c) = c := by
  apply BitVec.eq_of_toNat_eq
  have hc := c.isLt
  rw [toNat_codeOf]
  simp only [fieldsOf, BitVec.extractLsb'_toNat, Nat.shiftRight_eq_div_pow]
  omega

/-- A read code is decoded by the map. -/
theorem decode_busRead (a : Area) (k : Kind) (off : Word) :
    decode (busCode 0x0#4 a k off) 0 = .ok (decodeRead a k off) := by
  rw [busCode, decode, fieldsOf_codeOf]; cases a <;> cases k <;> rfl

/-- A write code is decoded by the map. -/
theorem decode_busWrite (a : Area) (off : Word) (v : Nat) :
    decode (busCode 0x1#4 a .ordinary off) v = .ok (decodeWrite a off v) := by
  rw [busCode, decode, fieldsOf_codeOf]; cases a <;> rfl

/-- A push code is decoded by its stream id. -/
theorem decode_hostPush (arg : Word) (v : Nat) : decode (opCode 0x5#4 arg) v = decodePush arg v := by
  rw [opCode, decode, fieldsOf_codeOf]; rfl

/-- A pop code is decoded by its stream id. -/
theorem decode_hostPop (arg : Word) : decode (opCode 0x6#4 arg) 0 = decodePop arg := by
  rw [opCode, decode, fieldsOf_codeOf]; rfl

end Sys2Proof

namespace Sys2Proof.Laws.Encoded

open Sys2Proof

/-- The decoder reads a well-formed instruction back from its code and operand (30_encoding.md R150, R151). -/
def Statement (i : Instr) : Prop := i.wf = true → decode (encode i).1 (encode i).2 = .ok i

theorem readPctl (k : Kind) : Statement (.readPctl k) := fun _ => decode_busRead _ _ _

theorem readHckr (k : Kind) : Statement (.readHckr k) := fun _ => decode_busRead _ _ _

theorem readHcsr (k : Kind) : Statement (.readHcsr k) := fun _ => decode_busRead _ _ _

theorem readHsar (k : Kind) : Statement (.readHsar k) := fun _ => decode_busRead _ _ _

theorem readHtx (k : Kind) : Statement (.readHtx k) := fun _ => decode_busRead _ _ _

theorem readTx0 (k : Kind) : Statement (.readTx0 k) := fun _ => decode_busRead _ _ _

theorem readTx1 (k : Kind) : Statement (.readTx1 k) := fun _ => decode_busRead _ _ _

theorem readTx2 (k : Kind) : Statement (.readTx2 k) := fun _ => decode_busRead _ _ _

theorem readTx3 (k : Kind) : Statement (.readTx3 k) := fun _ => decode_busRead _ _ _

theorem readTx4 (k : Kind) : Statement (.readTx4 k) := fun _ => decode_busRead _ _ _

theorem readTx5 (k : Kind) : Statement (.readTx5 k) := fun _ => decode_busRead _ _ _

theorem readRx0 (k : Kind) : Statement (.readRx0 k) := fun _ => decode_busRead _ _ _

theorem readRx1 (k : Kind) : Statement (.readRx1 k) := fun _ => decode_busRead _ _ _

theorem readRx2 (k : Kind) : Statement (.readRx2 k) := fun _ => decode_busRead _ _ _

theorem readRx3 (k : Kind) : Statement (.readRx3 k) := fun _ => decode_busRead _ _ _

theorem readSaisr (k : Kind) : Statement (.readSaisr k) := fun _ => decode_busRead _ _ _

theorem readSaicr (k : Kind) : Statement (.readSaicr k) := fun _ => decode_busRead _ _ _

theorem readTcr (k : Kind) : Statement (.readTcr k) := fun _ => decode_busRead _ _ _

theorem readTccr (k : Kind) : Statement (.readTccr k) := fun _ => decode_busRead _ _ _

theorem readRcr (k : Kind) : Statement (.readRcr k) := fun _ => decode_busRead _ _ _

theorem readRccr (k : Kind) : Statement (.readRccr k) := fun _ => decode_busRead _ _ _

theorem readChidr (k : Kind) : Statement (.readChidr k) := fun _ => decode_busRead _ _ _

theorem readOdbc (k : Kind) : Statement (.readOdbc k) := fun _ => decode_busRead _ _ _

theorem readEmbc (k : Kind) : Statement (.readEmbc k) := fun _ => decode_busRead _ _ _

theorem readHrx : Statement .readHrx := fun _ => decode_busRead _ _ _

theorem readBtHrx : Statement .readBtHrx := fun _ => decode_busRead _ _ _

theorem writePctl (v : Nat) : Statement (.writePctl v) := fun _ => decode_busWrite _ _ _

theorem writeHckr (v : Nat) : Statement (.writeHckr v) := fun _ => decode_busWrite _ _ _

theorem writeHcsr (v : Nat) : Statement (.writeHcsr v) := fun _ => decode_busWrite _ _ _

theorem writeHsar (v : Nat) : Statement (.writeHsar v) := fun _ => decode_busWrite _ _ _

theorem writeHtx (v : Nat) : Statement (.writeHtx v) := fun _ => decode_busWrite _ _ _

theorem writeHrx (v : Nat) : Statement (.writeHrx v) := fun _ => decode_busWrite _ _ _

theorem writeTx0 (v : Nat) : Statement (.writeTx0 v) := fun _ => decode_busWrite _ _ _

theorem writeTx1 (v : Nat) : Statement (.writeTx1 v) := fun _ => decode_busWrite _ _ _

theorem writeTx2 (v : Nat) : Statement (.writeTx2 v) := fun _ => decode_busWrite _ _ _

theorem writeTx3 (v : Nat) : Statement (.writeTx3 v) := fun _ => decode_busWrite _ _ _

theorem writeTx4 (v : Nat) : Statement (.writeTx4 v) := fun _ => decode_busWrite _ _ _

theorem writeTx5 (v : Nat) : Statement (.writeTx5 v) := fun _ => decode_busWrite _ _ _

theorem writeRx0 (v : Nat) : Statement (.writeRx0 v) := fun _ => decode_busWrite _ _ _

theorem writeRx1 (v : Nat) : Statement (.writeRx1 v) := fun _ => decode_busWrite _ _ _

theorem writeRx2 (v : Nat) : Statement (.writeRx2 v) := fun _ => decode_busWrite _ _ _

theorem writeRx3 (v : Nat) : Statement (.writeRx3 v) := fun _ => decode_busWrite _ _ _

theorem writeSaisr (v : Nat) : Statement (.writeSaisr v) := fun _ => decode_busWrite _ _ _

theorem writeSaicr (v : Nat) : Statement (.writeSaicr v) := fun _ => decode_busWrite _ _ _

theorem writeTcr (v : Nat) : Statement (.writeTcr v) := fun _ => decode_busWrite _ _ _

theorem writeTccr (v : Nat) : Statement (.writeTccr v) := fun _ => decode_busWrite _ _ _

theorem writeRcr (v : Nat) : Statement (.writeRcr v) := fun _ => decode_busWrite _ _ _

theorem writeRccr (v : Nat) : Statement (.writeRccr v) := fun _ => decode_busWrite _ _ _

theorem writeChidr (v : Nat) : Statement (.writeChidr v) := fun _ => decode_busWrite _ _ _

theorem writeOdbc (v : Nat) : Statement (.writeOdbc v) := fun _ => decode_busWrite _ _ _

theorem writeEmbc (v : Nat) : Statement (.writeEmbc v) := fun _ => decode_busWrite _ _ _

theorem exec : Statement .exec := fun _ => by rw [encode, opCode, decode, fieldsOf_codeOf]; rfl

theorem reset : Statement .reset := fun _ => by rw [encode, opCode, decode, fieldsOf_codeOf]; rfl

theorem terminate : Statement .terminate := fun _ => by rw [encode, opCode, decode, fieldsOf_codeOf]; rfl

theorem hpushShiRx (v : Nat) : Statement (.hpushShiRx v) := fun _ => decode_hostPush _ _

theorem hpushEsaiIn0 (v : Nat) : Statement (.hpushEsaiIn0 v) := fun _ => decode_hostPush _ _

theorem hpushEsaiIn1 (v : Nat) : Statement (.hpushEsaiIn1 v) := fun _ => decode_hostPush _ _

theorem hpushEsaiIn2 (v : Nat) : Statement (.hpushEsaiIn2 v) := fun _ => decode_hostPush _ _

theorem hpushEsaiIn3 (v : Nat) : Statement (.hpushEsaiIn3 v) := fun _ => decode_hostPush _ _

theorem hpushEsaiIn4to7 (c : Nat) (v : Nat) : Statement (.hpushEsaiIn4to7 c v) := by
  intro h
  simp only [Instr.wf, decide_eq_true_eq] at h
  have : c = 4 ∨ c = 5 ∨ c = 6 ∨ c = 7 := by omega
  rcases this with rfl | rfl | rfl | rfl <;> exact decode_hostPush _ v

theorem hpushEsaiIn8to15 (c : Nat) (v : Nat) : Statement (.hpushEsaiIn8to15 c v) := by
  intro h
  simp only [Instr.wf, decide_eq_true_eq] at h
  have : c = 8 ∨ c = 9 ∨ c = 10 ∨ c = 11 ∨ c = 12 ∨ c = 13 ∨ c = 14 ∨ c = 15 := by omega
  rcases this with rfl | rfl | rfl | rfl | rfl | rfl | rfl | rfl <;> exact decode_hostPush _ v

theorem hpopShiTx : Statement .hpopShiTx := fun _ => decode_hostPop _

theorem hpopEsaiOut0 : Statement .hpopEsaiOut0 := fun _ => decode_hostPop _

theorem hpopEsaiOut1 : Statement .hpopEsaiOut1 := fun _ => decode_hostPop _

theorem hpopEsaiOut2 : Statement .hpopEsaiOut2 := fun _ => decode_hostPop _

theorem hpopEsaiOut3 : Statement .hpopEsaiOut3 := fun _ => decode_hostPop _

theorem hpopEsaiOut4 : Statement .hpopEsaiOut4 := fun _ => decode_hostPop _

theorem hpopEsaiOut5 : Statement .hpopEsaiOut5 := fun _ => decode_hostPop _

theorem hpopEsaiOut6to7 (c : Nat) : Statement (.hpopEsaiOut6to7 c) := by
  intro h
  simp only [Instr.wf, decide_eq_true_eq] at h
  have : c = 6 ∨ c = 7 := by omega
  rcases this with rfl | rfl <;> exact decode_hostPop _

theorem hpopEsaiOut8to15 (c : Nat) : Statement (.hpopEsaiOut8to15 c) := by
  intro h
  simp only [Instr.wf, decide_eq_true_eq] at h
  have : c = 8 ∨ c = 9 ∨ c = 10 ∨ c = 11 ∨ c = 12 ∨ c = 13 ∨ c = 14 ∨ c = 15 := by omega
  rcases this with rfl | rfl | rfl | rfl | rfl | rfl | rfl | rfl <;> exact decode_hostPop _

theorem bkptSet (addr : Word) : Statement (.bkptSet addr) := fun _ => by rw [encode, opCode, decode, fieldsOf_codeOf]; rfl

theorem bkptDel (addr : Word) : Statement (.bkptDel addr) := fun _ => by rw [encode, opCode, decode, fieldsOf_codeOf]; rfl

theorem cont (n : Nat) : Statement (.cont n) := fun _ => by rw [encode, opCode, decode, fieldsOf_codeOf]; rfl

theorem dstep : Statement .dstep := fun _ => by rw [encode, opCode, decode, fieldsOf_codeOf]; rfl

theorem boot : Statement .boot := fun _ => by rw [encode, opCode, decode, fieldsOf_codeOf]; rfl

theorem readBacking (a : Area) (k : Kind) (off : Word) : Statement (.readBacking a k off) := by
  intro h
  simp only [Instr.wf, Option.isNone_iff_eq_none] at h
  exact (decode_busRead a k off).trans (by simp [decodeRead, h])

theorem writeBacking (a : Area) (off : Word) (v : Nat) : Statement (.writeBacking a off v) := by
  intro h
  simp only [Instr.wf, Option.isNone_iff_eq_none] at h
  exact (decode_busWrite a off v).trans (by simp [decodeWrite, h])

end Sys2Proof.Laws.Encoded
end

