-- ==== Sys2Proof/Laws/Ticks.lean ====
section
/-! SUPPORT. The ticks of the SHI and the ESAI, part by part: what each part does where it goes through, and where it stops. -/

namespace Sys2Proof.Machine

/-! ### The SHI -/

/-- The SHI tick changes nothing but the SHI and the history (44_shi.md R380). -/
theorem State.shiExec_frame (s : State) : s.shiExec = { s with shi := s.shiExec.shi, hist := s.shiExec.hist } := by
  unfold State.shiExec State.shiDeliverRx State.shiDeliverTx
  dsimp only
  split <;> [rfl; split] <;> [split; split] <;> [split; split; rfl; rfl] <;> first | rfl | (split <;> rfl)

/-! ### The ESAI's outputs -/

/-- Step 4a over two lists of channels is over the one and then the other. -/
theorem esaiOutputs_append (rest : List Periph) (l l' : List (Fin 6)) (s : State) :
    esaiOutputs rest (l ++ l') s = (esaiOutputs rest l s).bind fun _ s => esaiOutputs rest l' s := by
  induction l generalizing s with
  | nil => rfl
  | cons c cs ih =>
    simp only [List.cons_append, esaiOutputs]
    split
    · rw [Res.bind_assoc]; congr 1; funext _ s; exact ih s
    · exact ih s

/-- The output queues after step 4a has gone through the given channels (43_esai.md R314). -/
def outqAfter (l : List (Fin 6)) (es : EsaiState) (d : Fin 6) : Queue :=
  if d ∈ l ∧ es.tcr.getLsbD d.val = true then { items := es.outq[d].items ++ [es.txw[d]], shut := false } else es.outq[d]

/-- Step 4a goes through where every enabled channel's queue is open and has room (43_esai.md R314). -/
theorem esaiOutputs_done (rest : List Periph) (l : List (Fin 6)) (hn : l.Nodup) (s : State)
    (h : ∀ c ∈ l, s.esai.tcr.getLsbD c.val = true → s.esai.outq[c].shut = false ∧ s.esai.outq[c].items.length < Config.qcap) :
    ∃ q : Vector Queue 6, esaiOutputs rest l s = .done () { s with esai := { s.esai with outq := q } } ∧
      ∀ d : Fin 6, q[d] = outqAfter l s.esai d := by
  induction l generalizing s with
  | nil => exact ⟨s.esai.outq, rfl, fun d => by simp [outqAfter]⟩
  | cons c cs ih =>
    have hn' := List.nodup_cons.1 hn
    simp only [esaiOutputs, EsaiState.teTest_eq]
    cases hc : s.esai.tcr.getLsbD c.val
    · obtain ⟨q, h1, h2⟩ := ih hn'.2 s (fun d hd => h d (by simp [hd]))
      refine ⟨q, by simpa using h1, fun d => ?_⟩
      rw [h2 d]
      by_cases hd : d = c
      · subst hd; simp [outqAfter, hc]
      · simp [outqAfter, hd]
    · obtain ⟨ho, hl⟩ := h c (by simp) hc
      rcases pushAt_cases (.esaiOut c rest) (.out c) s.esai.txw[c] s with ⟨-, -, hp⟩ | ⟨-, hl', -⟩ | ⟨hs, -⟩
      · have he : esaiPush c rest s = _ := hp
        simp only [if_true, he, Res.bind_done]
        have hset : ∀ d : Fin 6, d ≠ c → (s.setQueue (.out c) { items := (s.queue (.out c)).items ++ [s.esai.txw[c]], shut :=
            false }).esai.outq[d] = s.esai.outq[d] := by
          intro d hd
          exact State.setQueue_queue_ne s (id := .out c) (id' := .out d) _ (by simpa using hd)
        obtain ⟨q, h1, h2⟩ := ih hn'.2 (s.setQueue (.out c) { items := (s.queue (.out c)).items ++ [s.esai.txw[c]], shut :=
            false }) (fun d hd ht => by
              rw [hset d (fun e => hn'.1 (e ▸ hd))]; exact h d (by simp [hd]) ht)
        refine ⟨q, by rw [h1]; rfl, fun d => ?_⟩
        rw [h2 d]
        by_cases hd : d = c
        · subst hd
          have := State.setQueue_queue_self s (.out d) { items := (s.queue (.out d)).items ++ [s.esai.txw[d]], shut := false }
          simp only [outqAfter, hn'.1, false_and, if_false, List.mem_cons, true_or, true_and]
          rw [if_pos hc]; exact this
        · have e1 : (s.setQueue (.out c) { items := (s.queue (.out c)).items ++ [s.esai.txw[c]], shut :=
            false }).esai.txw = s.esai.txw := rfl
          have e2 : (s.setQueue (.out c) { items := (s.queue (.out c)).items ++ [s.esai.txw[c]], shut :=
            false }).esai.tcr = s.esai.tcr := rfl
          simp only [outqAfter, hset d hd, e1, e2, List.mem_cons, hd, false_or]
      · exact absurd hl (Nat.not_lt.2 hl')
      · have : (s.queue (.out c)).shut = false := ho
        rw [this] at hs; cases hs

/-- The output queues after the lower channels of a held or aborted step 4a (43_esai.md R314). -/
theorem esaiOutputs_stops (rest : List Periph) (s : State) (c : Fin 6) (hc : s.esai.tcr.getLsbD c.val = true)
    (h : ∀ d : Fin 6, d < c → s.esai.tcr.getLsbD d.val = true →
      s.esai.outq[d].shut = false ∧ s.esai.outq[d].items.length < Config.qcap)
    (hs : s.esai.outq[c].shut = true ∨ Config.qcap ≤ s.esai.outq[c].items.length) :
    ∃ q : Vector Queue 6, (∀ d : Fin 6, q[d] = outqAfter (outChannels.filter (fun d => decide (d < c))) s.esai d) ∧
      esaiOutputs rest outChannels s =
        if s.esai.outq[c].shut then .abort { s with esai := { s.esai with outq := q } }
        else .hold (.esaiOut c rest) { s with esai := { s.esai with outq := q } } := by
  have hsplit : ∀ c : Fin 6, outChannels = outChannels.filter (fun d => decide (d < c)) ++ (c :: outChannelsAfter c) := by decide
  have hnd : ∀ c : Fin 6, (outChannels.filter (fun d => decide (d < c))).Nodup := by decide
  obtain ⟨q, h1, h2⟩ := esaiOutputs_done rest (outChannels.filter (fun d => decide (d < c))) (hnd c) s
    (fun d hd => h d (by simpa using (List.mem_filter.1 hd).2))
  refine ⟨q, h2, ?_⟩
  have hq : q[c] = s.esai.outq[c] := by rw [h2 c]; simp [outqAfter]
  conv => lhs; rw [hsplit c, esaiOutputs_append, h1]
  simp only [Res.bind_done, esaiOutputs, EsaiState.teTest_eq, hc, if_true]
  have hqq : ({ s with esai := { s.esai with outq := q } } : State).queue (.out c) = s.esai.outq[c] := hq
  rcases pushAt_cases (.esaiOut c rest) (.out c) s.esai.txw[c] { s with esai := { s.esai with outq := q } } with
    ⟨ho, hl, -⟩ | ⟨ho, -, hp⟩ | ⟨ho, hp⟩
  · rw [hqq] at ho hl
    rcases hs with hs | hs
    · rw [hs] at ho; cases ho
    · exact absurd hl (Nat.not_lt.2 hs)
  · rw [hqq] at ho
    have he : esaiPush c rest { s with esai := { s.esai with outq := q } } = _ := hp
    rw [he, ho]; rfl
  · rw [hqq] at ho
    have he : esaiPush c rest { s with esai := { s.esai with outq := q } } = _ := hp
    rw [he, ho]; rfl

/-! ### The ESAI's inputs -/

/-- Step 4b over two lists of channels is over the one and then the other. -/
theorem esaiInputs_append (l l' : List (Fin 4)) (s : State) :
    esaiInputs (l ++ l') s = (esaiInputs l s).bind fun _ s => esaiInputs l' s := by
  induction l generalizing s with
  | nil => rfl
  | cons c cs ih =>
    simp only [List.cons_append, esaiInputs]
    split
    · rw [Res.bind_assoc]; congr 1; funext _ s; exact ih s
    · exact ih s

/-- The input queues after step 4b has gone through the given channels (43_esai.md R315). -/
def inqAfter (l : List (Fin 4)) (es : EsaiState) (d : Fin 4) : Queue :=
  if d ∈ l ∧ es.rcr.getLsbD d.val = true then { items := es.inq[d].items.tail, shut := false } else es.inq[d]

/-- The receive buffer words after step 4b has gone through the given channels (43_esai.md R315). -/
def rxwAfter (l : List (Fin 4)) (es : EsaiState) (d : Fin 4) : Word :=
  if d ∈ l ∧ es.rcr.getLsbD d.val = true then es.inq[d].items.headD 0 else es.rxw[d]

/-- Step 4b goes through where every enabled channel's queue is open (43_esai.md R315). -/
theorem esaiInputs_done (l : List (Fin 4)) (hn : l.Nodup) (s : State)
    (h : ∀ c ∈ l, s.esai.rcr.getLsbD c.val = true → s.esai.inq[c].shut = false) :
    ∃ (q : Vector Queue 4) (r : Vector Word 4),
      esaiInputs l s = .done () { s with esai := { s.esai with inq := q, rxw := r } } ∧
      (∀ d : Fin 4, q[d] = inqAfter l s.esai d) ∧ ∀ d : Fin 4, r[d] = rxwAfter l s.esai d := by
  induction l generalizing s with
  | nil => exact ⟨s.esai.inq, s.esai.rxw, rfl, fun d => by simp [inqAfter], fun d => by simp [rxwAfter]⟩
  | cons c cs ih =>
    have hn' := List.nodup_cons.1 hn
    simp only [esaiInputs, EsaiState.reTest_eq]
    cases hc : s.esai.rcr.getLsbD c.val
    · obtain ⟨q, r, h1, h2, h3⟩ := ih hn'.2 s (fun d hd => h d (by simp [hd]))
      refine ⟨q, r, by simpa using h1, fun d => ?_, fun d => ?_⟩
      · rw [h2 d]
        by_cases hd : d = c
        · subst hd; simp [inqAfter, hc]
        · simp [inqAfter, hd]
      · rw [h3 d]
        by_cases hd : d = c
        · subst hd; simp [rxwAfter, hc]
        · simp [rxwAfter, hd]
    · have ho := h c (by simp) hc
      rcases esaiCapture_cases c s with ⟨-, hp⟩ | ⟨hs, -⟩
      · rw [if_pos rfl, hp, Res.bind_done]
        generalize hu : (s.setQueue (.inp c) { items := (s.queue (.inp c)).items.tail, shut := false }).setRxw c
          ((s.queue (.inp c)).items.headD 0) = u
        have hq : ∀ d : Fin 4, u.esai.inq[d] = if d = c then { items := s.esai.inq[c].items.tail, shut := false }
            else s.esai.inq[d] := by
          intro d
          subst hu
          have := State.setQueue_queue s (.inp c) (.inp d) { items := (s.queue (.inp c)).items.tail, shut := false }
          simp only [QId.inp.injEq] at this
          exact this
        have hr : ∀ d : Fin 4, u.esai.rxw[d] = if d = c then s.esai.inq[c].items.headD 0 else s.esai.rxw[d] := by
          intro d
          subst hu
          show (s.esai.rxw.set c.val (s.esai.inq[c].items.headD 0))[d.val] = _
          rw [Vector.getElem_set]
          by_cases hd : d = c
          · subst hd; simp
          · have : ¬ c.val = d.val := fun e => hd (Fin.ext e.symm)
            simp [hd, this]
        have hrcr : u.esai.rcr = s.esai.rcr := by subst hu; rfl
        obtain ⟨q, r, h1, h2, h3⟩ := ih hn'.2 u (fun d hd ht => by
          have hdc : d ≠ c := fun e => hn'.1 (e ▸ hd)
          rw [hq d, if_neg hdc]; exact h d (by simp [hd]) (hrcr ▸ ht))
        refine ⟨q, r, by rw [h1]; subst hu; rfl, fun d => ?_, fun d => ?_⟩
        · rw [h2 d]
          by_cases hd : d = c
          · subst hd; simp [inqAfter, hn'.1, hq, hc]
          · simp [inqAfter, hq, hd, hrcr]
        · rw [h3 d]
          by_cases hd : d = c
          · subst hd; simp [rxwAfter, hn'.1, hr, hc]
          · simp [rxwAfter, hq, hr, hd, hrcr]
      · have : (s.queue (.inp c)).shut = false := ho
        rw [this] at hs; cases hs

/-- Step 4b aborts at a shut queue, with the lower channels captured (43_esai.md R315, 41_bus.md R240). -/
theorem esaiInputs_stops (s : State) (c : Fin 4) (hc : s.esai.rcr.getLsbD c.val = true) (hs : s.esai.inq[c].shut = true)
    (h : ∀ d : Fin 4, d < c → s.esai.rcr.getLsbD d.val = true → s.esai.inq[d].shut = false) :
    ∃ (q : Vector Queue 4) (r : Vector Word 4),
      esaiInputs inChannels s = .abort { s with esai := { s.esai with inq := q, rxw := r } } ∧
      (∀ d : Fin 4, q[d] = inqAfter (inChannels.filter (fun d => decide (d < c))) s.esai d) ∧
      ∀ d : Fin 4, r[d] = rxwAfter (inChannels.filter (fun d => decide (d < c))) s.esai d := by
  have hsplit : ∀ c : Fin 4, inChannels = inChannels.filter (fun d => decide (d < c)) ++
    (c :: inChannels.filter (fun d => decide (c < d))) := by decide
  have hnd : ∀ c : Fin 4, (inChannels.filter (fun d => decide (d < c))).Nodup := by decide
  obtain ⟨q, r, h1, h2, h3⟩ := esaiInputs_done (inChannels.filter (fun d => decide (d < c))) (hnd c) s
    (fun d hd => h d (by simpa using (List.mem_filter.1 hd).2))
  refine ⟨q, r, ?_, h2, h3⟩
  have hq : q[c] = s.esai.inq[c] := by rw [h2 c]; simp [inqAfter]
  conv => lhs; rw [hsplit c, esaiInputs_append, h1]
  simp only [Res.bind_done, esaiInputs, EsaiState.reTest_eq, hc, if_true]
  rcases esaiCapture_cases c { s with esai := { s.esai with inq := q, rxw := r } } with ⟨ho, -⟩ | ⟨-, hp⟩
  · have : s.esai.inq[c].shut = false := by rw [← hq]; exact ho
    rw [this] at hs; cases hs
  · rw [hp]; rfl

/-! ### The ESAI's tick -/

/-- The elapsed count (43_esai.md R312). -/
theorem elapsed_counter (s : State) : elapsed s.cfg.cycW s.counter s.esai.snap =
    (((s.core.counter : Int) - (s.esai.snap : Int)) % (2 : Int) ^ s.cfg.cycW).toNat := by
  unfold elapsed State.counter
  congr 1
  push_cast
  rw [Int.emod_sub_emod]

/-- The end of a transfer tick: steps 5 to 7 (43_esai.md R310). -/
theorem State.esaiTickEnd_eq (s : State) : s.esaiTickEnd = { s with
    esai := { s.esai with tfs := !s.esai.tfs, tue := true, tde := true, wmask := 0, stRead := false }
    hist := s.hist ++ (if s.esai.tcr.getLsbD 22 then [.inject s.cfg.vecEsaiTd] else []) ++
      (if s.esai.tfs = false ∧ s.esai.tcr.getLsbD 23 = true then [.inject s.cfg.vecEsaiTls] else []) } := by
  have h1 : s.esaiToggle.esai.tie = s.esai.tcr.getLsbD 22 := rfl
  have h2 : s.esaiToggle.esai.tlie = s.esai.tcr.getLsbD 23 := rfl
  have h3 : s.esaiToggle.esai.tfs = !s.esai.tfs := rfl
  unfold State.esaiTickEnd State.esaiInterrupts State.esaiSetStatus
  rw [h1, h2, h3]
  generalize s.esai.tcr.getLsbD 22 = a
  generalize s.esai.tcr.getLsbD 23 = b
  cases a <;> cases b <;> cases h : s.esai.tfs <;>
    simp [State.esaiToggle, h, State.inject, State.event]

/-- Steps 4b to 7 go through where every enabled input queue is open (43_esai.md R310, R315, R316, R319). -/
theorem esaiTail_done (s : State) (hi : s.InputsOpen) :
    ∃ (iq : Vector Queue 4) (rx : Vector Word 4),
    esaiTail s = .done () { s with
      esai := { s.esai with inq := iq, rxw := rx, tfs := !s.esai.tfs, tue := true, tde := true, wmask := 0, stRead := false }
      hist := s.hist ++ (if s.esai.tcr.getLsbD 22 then [.inject s.cfg.vecEsaiTd] else []) ++
        (if s.esai.tfs = false ∧ s.esai.tcr.getLsbD 23 = true then [.inject s.cfg.vecEsaiTls] else []) } ∧
      (∀ c : Fin 4, iq[c] = if s.esai.rcr.getLsbD c.val then
        { items := s.esai.inq[c].items.tail, shut := false } else s.esai.inq[c]) ∧
      (∀ c : Fin 4, rx[c] = if s.esai.rcr.getLsbD c.val then s.esai.inq[c].items.headD 0 else s.esai.rxw[c]) := by
  obtain ⟨iq, rx, g1, g2, g3⟩ := esaiInputs_done inChannels (by decide) s (fun c _ h => hi c h)
  have hm : ∀ d, d ∈ inChannels := by decide
  refine ⟨iq, rx, ?_, fun d => ?_, fun d => ?_⟩
  · unfold esaiTail; rw [g1, Res.bind_done, State.esaiTickEnd_eq]
  · rw [g2 d]; simp [inqAfter, hm]
  · rw [g3 d]; simp [rxwAfter, hm]

/-- A held tick goes on: its push to channel `c` and the later enabled pushes go through where their queues are open and have room,
and steps 4b to 7 come after them (43_esai.md R314). -/
theorem esaiFrom_done (c : Fin 6) (rest : List Periph) (s : State) (ho : s.esai.outq[c].shut = false)
    (hl : s.esai.outq[c].items.length < Config.qcap)
    (h : ∀ d : Fin 6, c < d → s.esai.tcr.getLsbD d.val = true →
      s.esai.outq[d].shut = false ∧ s.esai.outq[d].items.length < Config.qcap) :
    ∃ oq : Vector Queue 6,
      esaiFrom c rest s = esaiTail { s with esai := { s.esai with outq := oq } } ∧
      ∀ d : Fin 6, oq[d] = if d = c ∨ (c < d ∧ s.esai.tcr.getLsbD d.val = true) then
        { items := s.esai.outq[d].items ++ [s.esai.txw[d]], shut := false } else s.esai.outq[d] := by
  rcases pushAt_cases (.esaiOut c rest) (.out c) s.esai.txw[c] s with ⟨-, -, hp⟩ | ⟨-, hl', -⟩ | ⟨hs, -⟩
  · have he : esaiPush c rest s = _ := hp
    have hset : ∀ d : Fin 6, (s.setQueue (.out c) { items := (s.queue (.out c)).items ++ [s.esai.txw[c]], shut :=
        false }).esai.outq[d] = if d = c then { items := s.esai.outq[c].items ++ [s.esai.txw[c]], shut := false }
          else s.esai.outq[d] := by
      intro d
      have := State.setQueue_queue s (.out c) (.out d) { items := (s.queue (.out c)).items ++ [s.esai.txw[c]], shut := false }
      simp only [QId.out.injEq] at this
      exact this
    have hmem : ∀ c d : Fin 6, d ∈ outChannelsAfter c ↔ c < d := by decide
    have hnd : ∀ c : Fin 6, (outChannelsAfter c).Nodup := by decide
    obtain ⟨q, h1, h2⟩ := esaiOutputs_done rest (outChannelsAfter c) (hnd c)
      (s.setQueue (.out c) { items := (s.queue (.out c)).items ++ [s.esai.txw[c]], shut := false }) (fun d hd ht => by
        have hd := (hmem c d).1 hd
        rw [hset d, if_neg (Fin.ne_of_gt hd)]; exact h d hd ht)
    refine ⟨q, ?_, fun d => ?_⟩
    · unfold esaiFrom; rw [he, Res.bind_done, h1, Res.bind_done]; rfl
    · rw [h2 d]
      by_cases hd : d = c
      · subst hd
        have := hset d
        rw [if_pos rfl] at this
        rw [outqAfter, if_neg (fun h => Nat.lt_irrefl _ ((hmem d d).1 h.1)), if_pos (Or.inl rfl)]
        exact this
      · have e1 : (s.setQueue (.out c) { items := (s.queue (.out c)).items ++ [s.esai.txw[c]], shut :=
            false }).esai.txw = s.esai.txw := rfl
        have e2 : (s.setQueue (.out c) { items := (s.queue (.out c)).items ++ [s.esai.txw[c]], shut :=
            false }).esai.tcr = s.esai.tcr := rfl
        simp only [outqAfter, hmem, hset, hd, e1, e2, if_false, false_or]
  · exact absurd hl (Nat.not_lt.2 hl')
  · have : (s.queue (.out c)).shut = false := ho
    rw [this] at hs; cases hs

/-- A held tick holds again at the same push while its queue is full, with nothing changed (43_esai.md R314). -/
theorem esaiFrom_hold (c : Fin 6) (rest : List Periph) (s : State) (ho : s.esai.outq[c].shut = false)
    (hl : Config.qcap ≤ s.esai.outq[c].items.length) : esaiFrom c rest s = .hold (.esaiOut c rest) s := by
  unfold esaiFrom
  rcases pushAt_cases (.esaiOut c rest) (.out c) s.esai.txw[c] s with ⟨-, h, -⟩ | ⟨-, -, hp⟩ | ⟨hs, -⟩
  · exact absurd h (Nat.not_lt.2 hl)
  · have he : esaiPush c rest s = _ := hp
    rw [he]; rfl
  · have : (s.queue (.out c)).shut = false := ho
    rw [this] at hs; cases hs
end Sys2Proof.Machine
end

