-- ==== Sys2Proof/Laws/Stretch.lean ====
section
/-! SUPPORT. What no part of a transaction of E does, whatever it does else: one relation between the state before and after, kept
by every shared operation that E's transactions are made of. -/

namespace Sys2Proof.Machine

/-- The state `t` is one that a part of a transaction of E may leave from `s`: what no such part changes is as before, the history has
only grown, a shut queue is as it was, and what the invariant asks of the parts it may change is kept. -/
structure State.Within (s t : State) : Prop where
  cfg : t.cfg = s.cfg
  map : t.bus.map = s.bus.map
  bound : t.bus.bound = s.bus.bound
  hosts : t.hosts = s.hosts
  sched : t.sched = s.sched
  issuer : t.issuer = s.issuer
  dbg : t.dbg = s.dbg
  e : t.e = s.e
  replies : t.replies = s.replies
  hist : ∃ evs, t.hist = s.hist ++ evs
  shut : ∀ id, (s.queue id).shut = true → t.queue id = s.queue id
  room : ∀ id, (s.queue id).items.length ≤ Config.qcap → (t.queue id).items.length ≤ Config.qcap
  mem : s.MemWf → t.MemWf
  snap : s.esai.snap < 2 ^ s.cfg.cycW → t.esai.snap < 2 ^ s.cfg.cycW

/-- A part ends, holds or aborts in such a state, or faults. -/
def Res.Within {α : Type} (s : State) : Res α → Prop
  | .done _ t => s.Within t
  | .hold _ t => s.Within t
  | .abort t => s.Within t
  | .fault _ => True

theorem State.Within.refl (s : State) : s.Within s where
  cfg := rfl
  map := rfl
  bound := rfl
  hosts := rfl
  sched := rfl
  issuer := rfl
  dbg := rfl
  e := rfl
  replies := rfl
  hist := ⟨[], by simp⟩
  shut := fun _ _ => rfl
  room := fun _ h => h
  mem := id
  snap := id

theorem State.Within.trans {s t u : State} (h : s.Within t) (g : t.Within u) : s.Within u where
  cfg := g.cfg.trans h.cfg
  map := g.map.trans h.map
  bound := g.bound.trans h.bound
  hosts := g.hosts.trans h.hosts
  sched := g.sched.trans h.sched
  issuer := g.issuer.trans h.issuer
  dbg := g.dbg.trans h.dbg
  e := g.e.trans h.e
  replies := g.replies.trans h.replies
  hist := by
    obtain ⟨a, ha⟩ := h.hist
    obtain ⟨b, hb⟩ := g.hist
    exact ⟨a ++ b, by rw [hb, ha, List.append_assoc]⟩
  shut := fun id hs => (g.shut id (by rw [h.shut id hs]; exact hs)).trans (h.shut id hs)
  room := fun id hl => g.room id (h.room id hl)
  mem := fun hm => g.mem (h.mem hm)
  snap := fun hs => by
    have := g.snap (by rw [h.cfg]; exact h.snap hs)
    rwa [h.cfg] at this

/-- An update of registers, flags and words that leaves the queues, the memory and the snapshot. -/
theorem State.Within.simple {s t : State} (sh : ShiState) (es : EsaiState) (em : Word) (c : CoreView) (evs : List Event)
    (h : t = { s with shi := sh, esai := es, embc := em, core := c, hist := s.hist ++ evs })
    (hq : ∀ id, t.queue id = s.queue id) (hs : t.esai.snap = s.esai.snap) : s.Within t where
  cfg := by rw [h]
  map := by rw [h]
  bound := by rw [h]
  hosts := by rw [h]
  sched := by rw [h]
  issuer := by rw [h]
  dbg := by rw [h]
  e := by rw [h]
  replies := by rw [h]
  hist := ⟨evs, by rw [h]⟩
  shut := fun id _ => hq id
  room := fun id hl => by rw [hq id]; exact hl
  mem := fun hm => by subst h; intro a; have := hm a; cases a <;> exact this
  snap := fun hl => by rw [hs]; exact hl

/-- A part and what comes after it. -/
theorem Res.Within.bind {α β : Type} {s : State} {r : Res α} {k : α → State → Res β} (h : r.Within s)
    (hk : ∀ a t, (k a t).Within t) : (r.bind k).Within s := by
  cases r with
  | done a t =>
    have ht : s.Within t := h
    have := hk a t
    show (k a t).Within s
    revert this
    cases k a t with
    | done b u => exact fun g => ht.trans g
    | hold p u => exact fun g => ht.trans g
    | abort u => exact fun g => ht.trans g
    | fault f => exact fun _ => trivial
  | hold p t => exact h
  | abort t => exact h
  | fault f => trivial

theorem Res.Within.map {α β : Type} {s : State} {r : Res α} (g : α → β) (h : r.Within s) : (r.map g).Within s := by
  cases r <;> exact h

theorem Res.Within.done {α : Type} {s t : State} {a : α} (h : s.Within t) : (Res.done a t).Within s := h

theorem Res.Within.of_trans {α : Type} {s t : State} {r : Res α} (h : s.Within t) (g : r.Within t) : r.Within s := by
  cases r with
  | done a u => exact h.trans g
  | hold p u => exact h.trans g
  | abort u => exact h.trans g
  | fault f => trivial

/-! ### Events -/

theorem State.Within.event (s : State) (ev : Event) : s.Within (s.event ev) :=
  .simple s.shi s.esai s.embc s.core [ev] rfl (fun id => by cases id <;> rfl) rfl

theorem State.Within.log (s : State) (d : Diag) : s.Within (s.log d) := .event s _

theorem State.Within.inject (s : State) (v : Nat) : s.Within (s.inject v) := .event s _

theorem State.Within.setPc (s : State) (a : Word) : s.Within (s.setPc a) :=
  .simple s.shi s.esai s.embc { s.core with pc := a.toNat } [.setPc a] rfl (fun id => by cases id <;> rfl) rfl

/-! ### Queues -/

/-- Setting a queue that is open, to one that is not longer than the capacity. -/
theorem State.Within.setQueue (s : State) (id : QId) (q : Queue) (ho : (s.queue id).shut = false)
    (hl : (s.queue id).items.length ≤ Config.qcap → q.items.length ≤ Config.qcap) : s.Within (s.setQueue id q) where
  cfg := by cases id <;> rfl
  map := by cases id <;> rfl
  bound := by cases id <;> rfl
  hosts := by cases id <;> rfl
  sched := by cases id <;> rfl
  issuer := by cases id <;> rfl
  dbg := by cases id <;> rfl
  e := by cases id <;> rfl
  replies := by cases id <;> rfl
  hist := ⟨[], by cases id <;> simp [State.setQueue]⟩
  shut := fun j hj => by
    rw [State.setQueue_queue]
    split
    · rename_i e; subst e; rw [ho] at hj; cases hj
    · rfl
  room := fun j hj => by
    rw [State.setQueue_queue]
    split
    · rename_i e; subst e; exact hl hj
    · exact hj
  mem := fun hm a => by have := hm a; cases id <;> cases a <;> exact this
  snap := fun h => by cases id <;> exact h

theorem pushAt_within (p : HoldPoint) (id : QId) (v : Word) (s : State) : (pushAt p id v s).Within s := by
  rcases pushAt_cases p id v s with ⟨ho, hl, h⟩ | ⟨-, -, h⟩ | ⟨-, h⟩ <;> rw [h]
  · exact .setQueue s id _ ho (fun _ => by simp; omega)
  · exact .refl s
  · exact .refl s

theorem popAt_within (p : HoldPoint) (id : QId) (s : State) : (popAt p id s).Within s := by
  rcases popAt_cases p id s with ⟨w, ws, hq, h⟩ | ⟨-, h⟩ | ⟨-, h⟩ <;> rw [h]
  · exact .setQueue s id _ (by rw [hq]) (fun hl => by rw [hq] at hl; simp at hl ⊢; omega)
  · exact .refl s
  · exact .refl s

/-! ### Registers and memory -/

theorem State.Within.countRx (s : State) : s.Within s.countRx := by
  unfold State.countRx
  split
  · exact .simple { s.shi with pendRx := s.shi.pendRx + 1 } s.esai s.embc s.core [] (by simp) (fun id => by cases id <;> rfl) rfl
  · exact .refl s

theorem State.Within.memReadState (s : State) (a : Area) (off : Word) : s.Within (s.memReadState a off) := by
  unfold State.memReadState
  split <;> exact .log s _

theorem State.Within.memWrite (s : State) (a : Area) (off v : Word) : s.Within (s.memWrite a off v) where
  cfg := by simp
  map := by unfold State.memWrite; split <;> cases a <;> rfl
  bound := by unfold State.memWrite; split <;> cases a <;> rfl
  hosts := by simp
  sched := by simp
  issuer := by simp
  dbg := by simp
  e := by simp
  replies := by simp
  hist := by unfold State.memWrite; split <;> cases a <;> exact ⟨_, rfl⟩
  shut := fun id _ => by simp
  room := fun id h => by simpa using h
  mem := State.memWrite_memWf s a off v
  snap := fun h => by simpa using h

theorem State.Within.txComplete (s : State) : s.Within s.txComplete := by
  unfold State.txComplete
  split
  · exact .simple s.shi { s.esai with tue := if s.esai.stRead then false else s.esai.tue, tde := false } s.embc s.core []
      (by simp) (fun id => by cases id <;> rfl) rfl
  · exact .refl s

theorem readReg_within (r : Reg) (k : Kind) (s : State) : (readReg r k s).Within s := by
  cases r with
  | hrx =>
    cases k
    · exact popAt_within .hrxRead .shiRx s
    · show (readHrxBitTest s).Within s
      rcases readHrxBitTest_cases s with ⟨w, ws, -, h⟩ | ⟨-, h⟩ <;> rw [h]
      · exact .refl s
      · trivial
  | rx c => show s.Within (s.rxState c); unfold State.rxState; split; exacts [.refl s, .log s _]
  | tx c => exact .log s _
  | saisr =>
    exact State.Within.simple s.shi { s.esai with stRead := true } s.embc s.core [] (by simp) (fun id => by cases id <;> rfl) rfl
  | pctl => exact .log s _
  | htx => exact .log s _
  | _ => exact .refl s

theorem writeReg_within (r : Reg) (v : Word) (s : State) : (writeReg r v s).Within s := by
  cases r with
  | hrx => exact (pushAt_within _ _ _ _).bind fun _ t => State.Within.countRx t
  | htx =>
    refine (pushAt_within _ _ _ _).bind fun _ t => ?_
    exact State.Within.simple { t.shi with pendTx := t.shi.pendTx + 1 } t.esai t.embc t.core [] (by simp [State.countTx])
      (fun id => by cases id <;> rfl) rfl
  | tx c =>
    show (writeTxReg c v s).Within s
    unfold writeTxReg
    split
    · refine State.Within.trans ?_ (.txComplete _)
      exact .simple s.shi (s.txAccept c v).esai s.embc s.core [] (by simp [State.txAccept]) (fun id => by cases id <;> rfl) rfl
    · exact .log s _
  | rx c => exact .log s _
  | saisr => exact .log s _
  | chidr => exact .log s _
  | pctl => exact .refl s
  | odbc => exact .refl s
  | hcsr => exact State.Within.simple _ s.esai s.embc s.core [] (by simp; rfl) (fun id => by cases id <;> rfl) rfl
  | hckr => exact State.Within.simple _ s.esai s.embc s.core [] (by simp; rfl) (fun id => by cases id <;> rfl) rfl
  | hsar => exact State.Within.simple _ s.esai s.embc s.core [] (by simp; rfl) (fun id => by cases id <;> rfl) rfl
  | saicr => exact State.Within.simple s.shi _ s.embc s.core [] (by simp; rfl) (fun id => by cases id <;> rfl) rfl
  | tcr => exact State.Within.simple s.shi _ s.embc s.core [] (by simp; rfl) (fun id => by cases id <;> rfl) rfl
  | tccr => exact State.Within.simple s.shi _ s.embc s.core [] (by simp; rfl) (fun id => by cases id <;> rfl) rfl
  | rcr => exact State.Within.simple s.shi _ s.embc s.core [] (by simp; rfl) (fun id => by cases id <;> rfl) rfl
  | rccr => exact State.Within.simple s.shi _ s.embc s.core [] (by simp; rfl) (fun id => by cases id <;> rfl) rfl
  | embc => exact State.Within.simple s.shi s.esai v s.core [] (by simp) (fun id => by cases id <;> rfl) rfl

/-- All that a bus read keeps (41_bus.md R232). -/
theorem busRead_within (a : Area) (off : Word) (k : Kind) (s : State) : (busRead a off k s).Within s := by
  unfold busRead
  split
  · exact readReg_within _ _ _
  · exact State.Within.memReadState s a off

/-- All that a bus write keeps (41_bus.md R234). -/
theorem busWrite_within (a : Area) (off : Word) (v : Nat) (s : State) : (busWrite a off v s).Within s := by
  unfold busWrite
  split
  · exact writeReg_within _ _ _
  · exact State.Within.memWrite s a off _

theorem busTxn_within (t : BusTxn) (s : State) : (busTxn t s).Within s := by
  cases t with
  | read a off k => exact (busRead_within a off k s).map _
  | write a off v => exact (busWrite_within a off v s).map _

/-! ### EXEC -/

theorem State.Within.shiExec (s : State) : s.Within s.shiExec := by
  obtain ⟨evs, h⟩ : ∃ evs, s.shiExec.hist = s.hist ++ evs := by
    unfold State.shiExec State.shiDeliverRx State.shiDeliverTx
    dsimp only
    (repeat' split) <;> first | exact ⟨[_], rfl⟩ | exact ⟨[], by simp⟩
  have hf := s.shiExec_frame
  rw [h] at hf
  exact .simple _ s.esai s.embc s.core evs hf (fun id => by simp) (by simp)

theorem esaiOutputs_within (rest : List Periph) (l : List (Fin 6)) (s : State) : (esaiOutputs rest l s).Within s := by
  induction l generalizing s with
  | nil => exact State.Within.refl s
  | cons c cs ih =>
    unfold esaiOutputs
    split
    · exact (pushAt_within _ _ _ _).bind fun _ t => ih t
    · exact ih s

theorem State.Within.setRxw (s : State) (c : Fin 4) (w : Word) : s.Within (s.setRxw c w) :=
  .simple s.shi (s.setRxw c w).esai s.embc s.core [] (by simp [State.setRxw]) (fun id => by cases id <;> rfl) rfl

theorem esaiInputs_within (l : List (Fin 4)) (s : State) : (esaiInputs l s).Within s := by
  induction l generalizing s with
  | nil => exact State.Within.refl s
  | cons c cs ih =>
    unfold esaiInputs
    split
    · refine Res.Within.bind ?_ fun _ t => ih t
      rcases esaiCapture_cases c s with ⟨ho, h⟩ | ⟨-, h⟩ <;> rw [h]
      · exact State.Within.trans
          (.setQueue s (.inp c) { items := (s.queue (.inp c)).items.tail, shut := false } ho (fun hl => by simp at hl ⊢; omega))
          (.setRxw _ c _)
      · exact State.Within.refl s
    · exact ih s

theorem State.Within.esaiTickEnd (s : State) : s.Within s.esaiTickEnd :=
  .simple s.shi _ s.embc s.core _ (by rw [State.esaiTickEnd_eq, List.append_assoc]) (fun id => by simp)
    (by rw [State.esaiTickEnd_eq])

theorem esaiTail_within (s : State) : (esaiTail s).Within s :=
  (esaiInputs_within _ s).bind fun _ t => State.Within.esaiTickEnd t

theorem esaiTransfer_within (rest : List Periph) (s : State) : (esaiTransfer rest s).Within s := by
  refine Res.Within.bind (Res.Within.of_trans ?_ (esaiOutputs_within rest outChannels _)) fun _ t => esaiTail_within t
  exact State.Within.simple s.shi _ s.embc s.core [] (by simp; rfl) (fun id => by cases id <;> rfl) rfl

theorem State.Within.esaiAccumulate (s : State) : s.Within s.esaiAccumulate where
  cfg := rfl
  map := rfl
  bound := rfl
  hosts := rfl
  sched := rfl
  issuer := rfl
  dbg := rfl
  e := rfl
  replies := rfl
  hist := ⟨[], by simp⟩
  shut := fun id _ => by simp
  room := fun id h => by simpa using h
  mem := fun hm a => by have := hm a; cases a <;> exact this
  snap := fun _ => Nat.mod_lt _ (Nat.two_pow_pos _)

theorem esaiExec_within (rest : List Periph) (s : State) : (esaiExec rest s).Within s := by
  unfold esaiExec
  split
  · exact State.Within.refl s
  · split
    · exact State.Within.esaiAccumulate s
    · exact .of_trans (.esaiAccumulate s) (esaiTransfer_within rest _)

theorem fanOut_within (l : List Periph) (s : State) : (fanOut l s).Within s := by
  induction l generalizing s with
  | nil => exact State.Within.refl s
  | cons p ps ih =>
    refine Res.Within.bind ?_ fun _ t => ih t
    cases p with
    | shi => exact State.Within.shiExec s
    | esai => exact esaiExec_within ps s
    | _ => exact State.Within.refl s

theorem execAll_within (s : State) : (execAll s).Within s := fanOut_within _ s

/-! ### BOOT, and a held part that goes on -/

theorem bootWords_within (start : Word) (n : Nat) (next : Word) (s : State) : (bootWords start n next s).Within s := by
  induction n generalizing next s with
  | zero => exact State.Within.setPc s start
  | succ n ih =>
    exact (popAt_within _ _ _).bind fun w t => .of_trans (.event t _) (ih _ _)

theorem bootFromAddr_within (n : Word) (s : State) : (bootFromAddr n s).Within s :=
  (popAt_within _ _ _).bind fun a t => bootWords_within a _ a t

theorem bootFromCount_within (s : State) : (bootFromCount s).Within s :=
  (popAt_within _ _ _).bind fun n t => bootFromAddr_within n t

/-- All that the part at which E holds keeps when it goes on (00_scope.md R13). -/
theorem runPoint_within (p : HoldPoint) (s : State) : (runPoint p s).Within s := by
  cases p with
  | hrxRead => exact (popAt_within _ _ _).map _
  | hrxWrite v => exact (writeReg_within .hrx v s).map _
  | htxWrite v => exact (writeReg_within .htx v s).map _
  | esaiOut c rest =>
    refine Res.Within.map _ (Res.Within.bind ?_ fun _ t => fanOut_within rest t)
    exact (pushAt_within _ _ _ _).bind fun _ t => (esaiOutputs_within rest _ t).bind fun _ u => esaiTail_within u
  | bootCount => exact bootFromCount_within s
  | bootAddr n => exact bootFromAddr_within n s
  | bootWord start next left => exact bootWords_within start (left + 1) next s

end Sys2Proof.Machine
end

