-- ==== Sys2Proof/Tests/Slice0.lean ====
section
/-! SUPPORT. The model's own tests. Expected values are those of spec/95_test_vectors.md (its vector is named in the comment) or
worked out from the rule named there; and, for each statement with hypotheses, a state and operands that meet them. -/

namespace Sys2Proof.Tests

open Sys2Proof Sys2Proof.Machine Sys2Proof.Claims

/-! ### States -/

/-- The parameters of 95_test_vectors.md. -/
def params : Params :=
  { backingWords := 0x100, initX := [], initY := [], cps := 4, cycW := 32, coreIndex := 0, vecEsaiTd := 0x10,
    vecEsaiTls := 0x12, vecShiRne := 0x20, vecShiRff := 0x22, vecShiTd := 0x24, order := ⟨0, 0, 0, 0⟩,
    dbgInit := .stopped }

/-- A core at PC `pc` whose counter is `counter` and whose next instruction makes no bus access. -/
def coreAt (counter pc : Nat) : CoreView :=
  { counter := counter, pc := pc, next := { txns := [], counter := counter + 1, pc := pc + 1 } }

/-- The construction state. -/
def fresh : State := State.construct params (coreAt 0 0x100)

/-- The construction state after RESET. -/
def base : State := { fresh with bus := { fresh.bus with bound := true } }

/-- The default state with another SHI. -/
def withShi (sh : ShiState) : State := { base with shi := sh }

/-- The default state with another ESAI, at a counter value. -/
def withEsai (es : EsaiState) (counter : Nat) : State := { base with esai := es, core := coreAt counter 0x100 }

/-- The default state with another debugger. -/
def withDbg (d : DbgState) : State := { base with dbg := d }

/-- The default state with one queue replaced. -/
def withQueue (id : QId) (q : Queue) : State := base.setQueue id q

/-- The default state with E aborted. -/
def abortedState : State := { base with e := { status := .aborted, held := none } }

/-- A queue of `n` zeros. -/
def zeros (n : Nat) : Queue := { items := List.replicate n 0, shut := false }

/-- The words of the queue. -/
def opened (l : List Word) : Queue := { items := l, shut := false }

/-- The queue, shut. -/
def closed (l : List Word) : Queue := { items := l, shut := true }

/-- The next state, if there is one. -/
def after : Out → Option State
  | .next s => some s
  | _ => none

/-- The fault, if there is one. -/
def faultOf : Out → Option Fault
  | .fault f => some f
  | _ => none

/-- The refusal, if there is one. -/
def refusalOf : Out → Option Refusal
  | .refused r => some r
  | _ => none

/-- The last ending given back, if there is a next state. -/
def ending (o : Out) : Option Ending := (after o).bind fun s => s.replies.getLast?.map Reply.ending

/-- What the last transaction gave back, and one view of the next state. -/
def seen {α : Type} (o : Out) (f : State → α) : Option (Option Ending × α) :=
  (after o).map fun s => (s.replies.getLast?.map Reply.ending, f s)

/-! ### Ill-formed terms -/

/-- A channel below its row: 30_encoding.md R149. -/
theorem test_wf_push_4to7_low : (Instr.hpushEsaiIn4to7 3 0).wf = false := by decide
/-- A channel above its row: 30_encoding.md R149. -/
theorem test_wf_push_4to7_high : (Instr.hpushEsaiIn4to7 8 0).wf = false := by decide
/-- A channel that is none: 30_encoding.md R149. -/
theorem test_wf_push_8to15 : (Instr.hpushEsaiIn8to15 16 0).wf = false := by decide
/-- An output channel that is mapped: 30_encoding.md R149. -/
theorem test_wf_pop_6to7 : (Instr.hpopEsaiOut6to7 5).wf = false := by decide
/-- An output channel of the row below: 30_encoding.md R149. -/
theorem test_wf_pop_8to15 : (Instr.hpopEsaiOut8to15 7).wf = false := by decide
/-- A backing read of a mapped pair: 30_encoding.md R150. -/
theorem test_wf_read_backing : (Instr.readBacking .x .ordinary 0x94#24).wf = false := by decide
/-- A backing write of a mapped pair: 30_encoding.md R150. -/
theorem test_wf_write_backing : (Instr.writeBacking .y 0xE6#24 0).wf = false := by decide

/-! ### Words written out from the tables of 30_encoding.md -/

/-- The reads, KIND 0: 30_encoding.md R141, R148. -/
theorem test_decode_reads :
    decode 0x0000007D#32 0 = .ok (.readPctl .ordinary) ∧
    decode 0x00000090#32 0 = .ok (.readHckr .ordinary) ∧
    decode 0x00000091#32 0 = .ok (.readHcsr .ordinary) ∧
    decode 0x00000092#32 0 = .ok (.readHsar .ordinary) ∧
    decode 0x00000093#32 0 = .ok (.readHtx .ordinary) ∧
    decode 0x000000A0#32 0 = .ok (.readTx0 .ordinary) ∧
    decode 0x000000A1#32 0 = .ok (.readTx1 .ordinary) ∧
    decode 0x000000A2#32 0 = .ok (.readTx2 .ordinary) ∧
    decode 0x000000A3#32 0 = .ok (.readTx3 .ordinary) ∧
    decode 0x000000A4#32 0 = .ok (.readTx4 .ordinary) ∧
    decode 0x000000A5#32 0 = .ok (.readTx5 .ordinary) ∧
    decode 0x000000A8#32 0 = .ok (.readRx0 .ordinary) ∧
    decode 0x000000A9#32 0 = .ok (.readRx1 .ordinary) ∧
    decode 0x000000AA#32 0 = .ok (.readRx2 .ordinary) ∧
    decode 0x000000AB#32 0 = .ok (.readRx3 .ordinary) ∧
    decode 0x000000B3#32 0 = .ok (.readSaisr .ordinary) ∧
    decode 0x000000B4#32 0 = .ok (.readSaicr .ordinary) ∧
    decode 0x000000B5#32 0 = .ok (.readTcr .ordinary) ∧
    decode 0x000000B6#32 0 = .ok (.readTccr .ordinary) ∧
    decode 0x000000B7#32 0 = .ok (.readRcr .ordinary) ∧
    decode 0x000000B8#32 0 = .ok (.readRccr .ordinary) ∧
    decode 0x000000F5#32 0 = .ok (.readChidr .ordinary) ∧
    decode 0x080000E2#32 0 = .ok (.readOdbc .ordinary) ∧
    decode 0x080000E6#32 0 = .ok (.readEmbc .ordinary) ∧
    decode 0x00000094#32 0 = .ok .readHrx := by decide

/-- The reads, KIND 1: 30_encoding.md R144, R148. -/
theorem test_decode_bit_test_reads :
    decode 0x0400007D#32 0 = .ok (.readPctl .bitTest) ∧
    decode 0x04000090#32 0 = .ok (.readHckr .bitTest) ∧
    decode 0x04000091#32 0 = .ok (.readHcsr .bitTest) ∧
    decode 0x04000092#32 0 = .ok (.readHsar .bitTest) ∧
    decode 0x04000093#32 0 = .ok (.readHtx .bitTest) ∧
    decode 0x040000A0#32 0 = .ok (.readTx0 .bitTest) ∧
    decode 0x040000A1#32 0 = .ok (.readTx1 .bitTest) ∧
    decode 0x040000A2#32 0 = .ok (.readTx2 .bitTest) ∧
    decode 0x040000A3#32 0 = .ok (.readTx3 .bitTest) ∧
    decode 0x040000A4#32 0 = .ok (.readTx4 .bitTest) ∧
    decode 0x040000A5#32 0 = .ok (.readTx5 .bitTest) ∧
    decode 0x040000A8#32 0 = .ok (.readRx0 .bitTest) ∧
    decode 0x040000A9#32 0 = .ok (.readRx1 .bitTest) ∧
    decode 0x040000AA#32 0 = .ok (.readRx2 .bitTest) ∧
    decode 0x040000AB#32 0 = .ok (.readRx3 .bitTest) ∧
    decode 0x040000B3#32 0 = .ok (.readSaisr .bitTest) ∧
    decode 0x040000B4#32 0 = .ok (.readSaicr .bitTest) ∧
    decode 0x040000B5#32 0 = .ok (.readTcr .bitTest) ∧
    decode 0x040000B6#32 0 = .ok (.readTccr .bitTest) ∧
    decode 0x040000B7#32 0 = .ok (.readRcr .bitTest) ∧
    decode 0x040000B8#32 0 = .ok (.readRccr .bitTest) ∧
    decode 0x040000F5#32 0 = .ok (.readChidr .bitTest) ∧
    decode 0x0C0000E2#32 0 = .ok (.readOdbc .bitTest) ∧
    decode 0x0C0000E6#32 0 = .ok (.readEmbc .bitTest) ∧
    decode 0x04000094#32 0 = .ok .readBtHrx := by decide

/-- The writes, each with an operand of its own: 30_encoding.md R147, R148. -/
theorem test_decode_writes :
    decode 0x1000007D#32 0x100 = .ok (.writePctl 0x100) ∧
    decode 0x10000090#32 0x101 = .ok (.writeHckr 0x101) ∧
    decode 0x10000091#32 0x102 = .ok (.writeHcsr 0x102) ∧
    decode 0x10000092#32 0x103 = .ok (.writeHsar 0x103) ∧
    decode 0x10000093#32 0x104 = .ok (.writeHtx 0x104) ∧
    decode 0x100000A0#32 0x105 = .ok (.writeTx0 0x105) ∧
    decode 0x100000A1#32 0x106 = .ok (.writeTx1 0x106) ∧
    decode 0x100000A2#32 0x107 = .ok (.writeTx2 0x107) ∧
    decode 0x100000A3#32 0x108 = .ok (.writeTx3 0x108) ∧
    decode 0x100000A4#32 0x109 = .ok (.writeTx4 0x109) ∧
    decode 0x100000A5#32 0x10A = .ok (.writeTx5 0x10A) ∧
    decode 0x100000A8#32 0x10B = .ok (.writeRx0 0x10B) ∧
    decode 0x100000A9#32 0x10C = .ok (.writeRx1 0x10C) ∧
    decode 0x100000AA#32 0x10D = .ok (.writeRx2 0x10D) ∧
    decode 0x100000AB#32 0x10E = .ok (.writeRx3 0x10E) ∧
    decode 0x100000B3#32 0x10F = .ok (.writeSaisr 0x10F) ∧
    decode 0x100000B4#32 0x110 = .ok (.writeSaicr 0x110) ∧
    decode 0x100000B5#32 0x111 = .ok (.writeTcr 0x111) ∧
    decode 0x100000B6#32 0x112 = .ok (.writeTccr 0x112) ∧
    decode 0x100000B7#32 0x113 = .ok (.writeRcr 0x113) ∧
    decode 0x100000B8#32 0x114 = .ok (.writeRccr 0x114) ∧
    decode 0x100000F5#32 0x115 = .ok (.writeChidr 0x115) ∧
    decode 0x10000094#32 0x116 = .ok (.writeHrx 0x116) ∧
    decode 0x180000E2#32 7 = .ok (.writeOdbc 7) ∧
    decode 0x180000E6#32 7 = .ok (.writeEmbc 7) := by decide

/-- The host streams: 30_encoding.md R149. -/
theorem test_decode_streams :
    decode 0x50000000#32 0x1000001 = .ok (.hpushShiRx 0x1000001) ∧
    decode 0x50000010#32 5 = .ok (.hpushEsaiIn0 5) ∧
    decode 0x50000011#32 6 = .ok (.hpushEsaiIn1 6) ∧
    decode 0x50000012#32 7 = .ok (.hpushEsaiIn2 7) ∧
    decode 0x50000013#32 8 = .ok (.hpushEsaiIn3 8) ∧
    decode 0x50000014#32 9 = .ok (.hpushEsaiIn4to7 4 9) ∧
    decode 0x50000017#32 9 = .ok (.hpushEsaiIn4to7 7 9) ∧
    decode 0x50000018#32 9 = .ok (.hpushEsaiIn8to15 8 9) ∧
    decode 0x5000001F#32 9 = .ok (.hpushEsaiIn8to15 15 9) ∧
    decode 0x60000001#32 0 = .ok .hpopShiTx ∧
    decode 0x60000020#32 0 = .ok .hpopEsaiOut0 ∧
    decode 0x60000021#32 0 = .ok .hpopEsaiOut1 ∧
    decode 0x60000022#32 0 = .ok .hpopEsaiOut2 ∧
    decode 0x60000023#32 0 = .ok .hpopEsaiOut3 ∧
    decode 0x60000024#32 0 = .ok .hpopEsaiOut4 ∧
    decode 0x60000025#32 0 = .ok .hpopEsaiOut5 ∧
    decode 0x60000026#32 0 = .ok (.hpopEsaiOut6to7 6) ∧
    decode 0x60000027#32 0 = .ok (.hpopEsaiOut6to7 7) ∧
    decode 0x60000028#32 0 = .ok (.hpopEsaiOut8to15 8) ∧
    decode 0x6000002F#32 0 = .ok (.hpopEsaiOut8to15 15) := by decide

/-- The operations with no bus and no stream: 30_encoding.md R142, R146, R147. -/
theorem test_decode_control :
    decode 0x20000000#32 0 = .ok .exec ∧
    decode 0x30000000#32 0 = .ok .reset ∧
    decode 0x40000000#32 0 = .ok .terminate ∧
    decode 0x70123456#32 0 = .ok (.bkptSet 0x123456#24) ∧
    decode 0x80000103#32 0 = .ok (.bkptDel 0x000103#24) ∧
    decode 0x90000000#32 5 = .ok (.cont 5) ∧
    decode 0xA0000000#32 0 = .ok .dstep ∧
    decode 0xB0000000#32 0 = .ok .boot := by decide

/-- Unmapped pairs, HRX's offset in the other area and the gaps of the ESAI range among them: 30_encoding.md R148, R150, E5. -/
theorem test_decode_backing :
    decode 0x08000094#32 0 = .ok (.readBacking .y .ordinary 0x94#24) ∧
    decode 0x040000A6#32 0 = .ok (.readBacking .x .bitTest 0xA6#24) ∧
    decode 0x000000AC#32 0 = .ok (.readBacking .x .ordinary 0xAC#24) ∧
    decode 0x180000F5#32 3 = .ok (.writeBacking .y 0xF5#24 3) ∧
    decode 0x10FFFFFF#32 0x1FFFFFF = .ok (.writeBacking .x 0xFFFFFF#24 0x1FFFFFF) := by decide

/-- What is refused: 30_encoding.md R160, E6 to E13. -/
theorem test_decode_refuses :
    decode 0xC0000000#32 0 = .error .reservedOp ∧
    decode 0xF0000000#32 0 = .error .reservedOp ∧
    decode 0x01000094#32 0 = .error .reservedBits ∧
    decode 0x02000094#32 0 = .error .reservedBits ∧
    decode 0x28000000#32 0 = .error .areaBit ∧
    decode 0x14000094#32 5 = .error .kindBit ∧
    decode 0x20000001#32 0 = .error .argument ∧
    decode 0x50000001#32 5 = .error .stream ∧
    decode 0x60000010#32 0 = .error .stream ∧
    decode 0x50000020#32 0 = .error .stream ∧
    decode 0x60000030#32 0 = .error .stream ∧
    decode 0x00000094#32 1 = .error .operand ∧
    decode 0x70123456#32 1 = .error .operand := by decide


/-- The host's numbering of a table row's bits: the code in the low 32 bits. -/
theorem test_decodeTableWord :
    decodeTableWord 32 0x180000E6 = some (.writeEmbc 0) ∧ decodeTableWord 32 0xC0000000 = none := by decide

/-- E6: the refusal is `Refused(Encoding)`, code 8 (60_exceptions.md R535). -/
theorem test_step_refuses :
    (refusalOf (step { base with sched := [.issue .e 0xC0000000#32 0] })).map refusalCode = some (some 8) := by decide

/-- A host may not issue a bus read: 60_exceptions.md R544. -/
theorem test_step_wrong_agent :
    refusalOf (step { base with sched := [.issue (.h 0) 0x00000094#32 0] }) = some .wrongAgent := by decide

/-! ### BitFields: B1 to B12 -/

/-- B1, B4, B6, B7. -/
theorem test_bitfield_views :
    bitView 4 0x00A5F0 = true ∧ packedView ⟨4, 4, by decide⟩ 0x00A5F0 = 0xF ∧ packedView ⟨0, 6, by decide⟩ 0x00A5F0 = 0x30 ∧
    setTestChecked ⟨0, 6, by decide⟩ 4 0x00A5F0 = .ok true ∧ setTestChecked ⟨0, 6, by decide⟩ 0 0x00A5F0 = .ok false ∧
    setTestChecked ⟨0, 6, by decide⟩ 6 0x00A5F0 = .error .bitFieldTestRange := by decide

/-- B8, B10, B11, B12. -/
theorem test_bitfield_merge :
    mergeView (subViewOfRaw ⟨8, 4, by decide⟩ 0x3) 0x00A5F0 = 0x00A3F0 ∧
    mergeView (subViewOfRaw ⟨0, 24, by decide⟩ 0x000123) 0xFFFFFF = 0x000123 ∧
    mergeView (subViewOfRaw ⟨4, 4, by decide⟩ 0x1F) 0 = 0x0000F0 ∧
    mergeView (subViewOfRaw ⟨12, 2, by decide⟩ 0x3) 0x000001 = 0x003001 := by decide

/-- B2 and U3: a pair beyond the word or of width 0 is no descriptor (40_bitfield.md R200). -/
theorem test_bitfield_refuses :
    Desc.ofPair 20 6 = none ∧ Desc.ofPair 3 0 = none ∧ Desc.ofPair 24 1 = none ∧
    (Desc.ofPair 18 6).map Desc.w = some 6 ∧ (Desc.ofPair 23 1) = some (Desc.bit 23) := by decide

/-- U4: a raw value is truncated on its way into a sub-view, and no sub-view holds more than its field (40_bitfield.md R205,
R208). -/
theorem test_bitfield_raw :
    (subViewOfRaw ⟨4, 4, by decide⟩ 0x1F).val = 0xF ∧ (subViewOfWord ⟨8, 4, by decide⟩ 0x00A5F0).val = 5 ∧
    ∀ f : SubView, f.desc = ⟨4, 4, by decide⟩ → f.val < 16 :=
  ⟨by decide, by decide, fun f h => by have := f.fits; rw [h] at this; exact this⟩

/-! ### The bus -/

/-- BU1, D9, S-9. -/
theorem test_unbound :
    faultOf (exec .exec fresh) = some .unboundCore ∧ faultOf (exec .dstep fresh) = some .unboundCore ∧
    faultOf (exec .boot fresh) = some .unboundCore := by decide

/-- BU3. -/
theorem test_backing_write :
    seen (exec (.writeBacking .x 0x10#24 5) base) (fun s => (s.bus.memX, s.bus.memY, s.hist)) =
      some (some (.done .unit), [(0x10, 5#24)], [], [.log (.memWrite .x 0x10#24 5)]) := by decide

/-- BU3: no aliasing of the areas. -/
theorem test_backing_read :
    ending (exec (.readBacking .x .ordinary 0x10#24) { base with bus := { base.bus with memX := [(0x10, 5#24)] } }) =
      some (.done (.word 5)) ∧
    ending (exec (.readBacking .y .ordinary 0x10#24) { base with bus := { base.bus with memX := [(0x10, 5#24)] } }) =
      some (.done (.word 0)) := by decide

/-- BU4: the first offset out of range. -/
theorem test_backing_out_of_bounds :
    seen (exec (.writeBacking .x 0x100#24 5) base) (fun s => (s.bus, s.hist)) =
      some (some (.done .unit), base.bus, [.log (.outOfBounds .x 0x100#24)]) ∧
    seen (exec (.readBacking .x .bitTest 0x100#24) base) (fun s => (s.bus, s.hist)) =
      some (some (.done (.word 0)), base.bus, [.log (.outOfBounds .x 0x100#24)]) := by decide

/-- BU5, N3. -/
theorem test_embc :
    seen (exec (.writeEmbc 0x1FFFFFF) base) (fun s => s.embc) = some (some (.done .unit), 0xFFFFFF#24) ∧
    ending (exec (.readEmbc .bitTest) { base with embc := 0x00ABCD }) = some (.done (.word 0x00ABCD)) := by decide

/-- BU6, N4, N5. -/
theorem test_placeholders :
    after (exec (.writePctl 0x123456) base) = after (.next (base.doneE .unit)) ∧
    seen (exec (.readPctl .ordinary) base) (fun s => s.hist) =
      some (some (.done (.word 0)), [.log (.writeOnlyRead .pctl)]) ∧
    after (exec (.writeOdbc 5) base) = after (.next (base.doneE .unit)) ∧
    ending (exec (.readOdbc .ordinary) base) = some (.done (.word 0)) := by decide

/-- N1, N2, S11. -/
theorem test_chidr :
    ending (exec (.readChidr .ordinary) base) = some (.done (.word 0x000720)) ∧
    ending (exec (.readChidr .ordinary) { base with cfg := { params with coreIndex := 1 } }) =
      some (.done (.word 0x010720)) ∧
    seen (exec (.writeChidr 0) base) (fun s => s.hist) = some (some (.done .unit), [.log (.readOnlyWrite .chidr)]) := by
  decide

/-- BU7, 41_bus.md R237. -/
theorem test_reset : after (exec .reset fresh) = after (.next (base.doneE .unit)) := by decide

/-- BU8, Q10: the words stay. -/
theorem test_terminate :
    seen (exec .terminate { withQueue (.out 5) (opened [1]) with issuer := .s }) (fun s => s.esai.outq) =
      some (some (.done .unit), #v[closed [], closed [], closed [], closed [], closed [], closed [1]]) ∧
    seen (exec .terminate base) (fun s => (s.shi.rxq, s.shi.txq, s.esai.inq)) =
      some (some (.done .unit), closed [], closed [], #v[closed [], closed [], closed [], closed []]) := by decide

/-- BU9, A1: nothing is enabled, and the counter is not read. -/
theorem test_exec_idle :
    after (exec .exec (withEsai base.esai 7)) = after (.next ((withEsai base.esai 7).doneE .unit)) := by decide

/-! ### Queues -/

/-- Q1, Q3, Q4. -/
theorem test_queue_push_pop :
    after (exec (.writeHtx 3) (withQueue .shiTx (opened [1, 2]))) =
      after (.next (State.doneE .unit { withQueue .shiTx (opened [1, 2, 3]) with
        shi := { (withQueue .shiTx (opened [1, 2, 3])).shi with pendTx := 1 } })) ∧
    seen (exec (.writeHtx 2) (withQueue .shiTx (closed [1]))) (fun s => (s.shi.txq, s.e.status)) =
      some (some .abort, closed [1], .aborted) ∧
    seen (exec .readHrx (withQueue .shiRx (closed [1]))) (fun s => (s.shi.rxq, s.e.status)) =
      some (some .abort, closed [1], .aborted) := by decide

/-- Q5, Q6, H9. -/
theorem test_queue_front :
    faultOf (exec .readBtHrx base) = some .peekEmpty ∧
    ending (exec .readBtHrx (withQueue .shiRx (closed [7]))) = some (.done (.word 7)) := by decide

/-- Q7, Q8, Q9. -/
theorem test_queue_tryPop :
    (opened []).tryPop = some (none, opened []) ∧ (opened [4, 5]).tryPop = some (some 4, opened [5]) ∧
    (closed []).tryPop = none := by decide

/-! ### The ESAI -/

/-- A2: the counter has wrapped. -/
theorem test_esai_wrap :
    seen (exec .exec (withEsai { base.esai with tcr := 1, snap := 0xFFFFFFFE } 1)) (fun s => (s.esai.acc, s.esai.snap)) =
      some (some (.done .unit), 3, 1) := by decide

/-- A3, the first EXEC: a backlog gives one tick. -/
theorem test_esai_backlog :
    seen (exec .exec (withEsai { base.esai with tcr := 1 } 10)) (fun s => (s.esai.acc, s.esai.tfs, s.esai.outq[0])) =
      some (some (.done .unit), 6, true, opened [0]) := by decide

/-- A5, A6: the write that completes the set. -/
theorem test_tx_complete :
    seen (exec (.writeTx1 2) (withEsai { base.esai with tcr := 3, tue := true, tde := true, wmask := 1 } 0))
        (fun s => (s.esai.wmask, s.esai.tue, s.esai.tde, s.esai.txw)) =
      some (some (.done .unit), 3, true, false, #v[0, 2, 0, 0, 0, 0]) ∧
    seen (exec (.writeTx1 2) (withEsai { base.esai with tcr := 3, tue := true, tde := true, wmask := 1, stRead := true } 0))
        (fun s => (s.esai.tue, s.esai.tde)) = some (some (.done .unit), false, false) := by decide

/-- A5's first write, 43_esai.md R330: the set is not complete. -/
theorem test_tx_incomplete :
    seen (exec (.writeTx0 0x1000005) (withEsai { base.esai with tcr := 3, tue := true, tde := true, stRead := true } 0))
        (fun s => (s.esai.wmask, s.esai.tue, s.esai.tde, s.esai.txw)) =
      some (some (.done .unit), 1, true, true, #v[5, 0, 0, 0, 0, 0]) := by decide

/-- A7, A8. -/
theorem test_tx_disabled :
    seen (exec (.writeTx1 5) (withEsai { base.esai with tcr := 1 } 0)) (fun s => (s.esai.txw, s.hist)) =
      some (some (.done .unit), #v[0, 0, 0, 0, 0, 0], [.log (.disabledChannel (.tx 1))]) ∧
    seen (exec (.readTx0 .ordinary) base) (fun s => s.hist) =
      some (some (.done (.word 0)), [.log (.writeOnlyRead (.tx 0))]) := by decide

/-- 43_esai.md R330: each channel's write goes to its own word and mask bit. -/
theorem test_tx_channels :
    let s := withEsai { base.esai with tcr := 0x3F } 0
    seen (exec (.writeTx2 9) s) (fun s => (s.esai.txw, s.esai.wmask)) = some (some (.done .unit), #v[0, 0, 9, 0, 0, 0], 4) ∧
    seen (exec (.writeTx3 9) s) (fun s => (s.esai.txw, s.esai.wmask)) = some (some (.done .unit), #v[0, 0, 0, 9, 0, 0], 8) ∧
    seen (exec (.writeTx4 9) s) (fun s => (s.esai.txw, s.esai.wmask)) = some (some (.done .unit), #v[0, 0, 0, 0, 9, 0], 16) ∧
    seen (exec (.writeTx5 9) s) (fun s => (s.esai.txw, s.esai.wmask)) = some (some (.done .unit), #v[0, 0, 0, 0, 0, 9], 32) := by
  decide

/-- A9, and 43_esai.md R332 and R333 on each channel. -/
theorem test_rx :
    let s := withEsai { base.esai with rcr := 0xE, rxw := #v[1, 2, 3, 4] } 0
    ending (exec (.readRx0 .ordinary) s) = some (.done (.word 0)) ∧
    ending (exec (.readRx1 .bitTest) s) = some (.done (.word 2)) ∧
    ending (exec (.readRx2 .ordinary) s) = some (.done (.word 3)) ∧
    ending (exec (.readRx3 .ordinary) s) = some (.done (.word 4)) ∧
    seen (exec (.writeRx3 9) s) (fun s => (s.esai.rxw, s.hist)) =
      some (some (.done .unit), #v[1, 2, 3, 4], [.log (.readOnlyWrite (.rx 3))]) := by decide

/-- A10, A11. -/
theorem test_esai_capture :
    seen (exec .exec (withEsai { base.esai with
        tcr := 1, rcr := 1, acc := 3, inq := #v[opened [7], opened [8], opened [], opened []] } 1))
      (fun s => (s.esai.rxw, s.esai.inq[0], s.esai.inq[1])) =
      some (some (.done .unit), #v[7, 0, 0, 0], opened [], opened [8]) ∧
    seen (exec .exec (withEsai { base.esai with tcr := 1, rcr := 1, snap := 1, rxw := #v[7, 0, 0, 0] } 5))
      (fun s => (s.esai.rxw, s.esai.inq[0])) = some (some (.done .unit), #v[0, 0, 0, 0], opened []) := by decide

/-- A14, A15. -/
theorem test_esai_shut :
    seen (exec .exec (withEsai { base.esai with
        tcr := 1, acc := 3, outq := base.esai.outq.set 0 (closed []) } 1))
      (fun s => (s.esai.acc, s.esai.snap, s.esai.tfs, s.e.status)) = some (some .abort, 0, 1, false, .aborted) ∧
    seen (exec .exec (withEsai { base.esai with tcr := 1, outq := base.esai.outq.set 0 (closed []) } 1))
      (fun s => (s.esai.acc, s.e.status)) = some (some (.done .unit), 1, .live) := by decide

/-- E held in the push of a tick with `acc = 0` already subtracted, the queue having room again. -/
def heldTick : State :=
  { withEsai { base.esai with tcr := 0x400001, snap := 1, txw := base.esai.txw.set 0 0x111111 } 1 with
    e := { status := .live, held := some (.queue (.esaiOut 0 [.ccm, .chid]) .bare) } }

/-- A13, after the host's pop: the tick ends. -/
theorem test_esai_resume :
    seen (resume .e heldTick) (fun t => (t.esai.acc, t.esai.tfs, t.esai.outq[(0 : Fin 6)].items)) =
      some (some (.done .unit), 0, true, [0x111111]) ∧
    (after (resume .e heldTick)).map (fun t => (t.hist, t.e)) =
      some ([.inject 0x10], { status := .live, held := none }) := by decide

/-- A16, A17. -/
theorem test_esai_registers :
    seen (exec (.writeTcr 0xC0003F) base) (fun s => s.esai.tcr) = some (some (.done .unit), 0xC0003F#24) ∧
    seen (exec (.readSaisr .bitTest) (withEsai { base.esai with tfs := true, tue := true, tde := true } 0))
      (fun s => s.esai.stRead) = some (some (.done (.word 0x00E000)), true) ∧
    seen (exec (.writeSaisr 0) base) (fun s => s.hist) = some (some (.done .unit), [.log (.readOnlyWrite .saisr)]) := by
  decide

/-- 43_esai.md R338, R340, R342, R344: each register keeps its own word. -/
theorem test_esai_storage :
    seen (exec (.writeRcr 0x1000001) base) (fun s => (s.esai.rcr, s.esai.tcr)) = some (some (.done .unit), 1#24, 0#24) ∧
    seen (exec (.writeSaicr 2) base) (fun s => s.esai.saicr) = some (some (.done .unit), 2#24) ∧
    seen (exec (.writeTccr 3) base) (fun s => s.esai.tccr) = some (some (.done .unit), 3#24) ∧
    seen (exec (.writeRccr 4) base) (fun s => s.esai.rccr) = some (some (.done .unit), 4#24) := by decide

/-- 43_esai.md R337, R339, R341, R343, R345. -/
theorem test_esai_storage_read :
    let s := withEsai { base.esai with tcr := 1, rcr := 2, saicr := 3, tccr := 4, rccr := 5 } 0
    ending (exec (.readTcr .ordinary) s) = some (.done (.word 1)) ∧
    ending (exec (.readRcr .ordinary) s) = some (.done (.word 2)) ∧
    ending (exec (.readSaicr .ordinary) s) = some (.done (.word 3)) ∧
    ending (exec (.readTccr .ordinary) s) = some (.done (.word 4)) ∧
    ending (exec (.readRccr .ordinary) s) = some (.done (.word 5)) := by decide

/-- A18, P1 step 4: the interrupts of the two halves of a frame. -/
theorem test_esai_interrupts :
    seen (exec .exec (withEsai { base.esai with tcr := 0xC00001, acc := 3 } 1)) (fun s => s.hist) =
      some (some (.done .unit), [.inject 0x10, .inject 0x12]) ∧
    seen (exec .exec (withEsai { base.esai with tcr := 0xC00001, acc := 3, tfs := true } 1)) (fun s => s.hist) =
      some (some (.done .unit), [.inject 0x10]) := by decide

/-! ### The SHI -/

/-- H1, H2. -/
theorem test_hcsr :
    seen (exec (.writeHcsr 0xFFFFFF) base) (fun s => s.shi.hcsr) = some (some (.done .unit), 0x3FFF#14) ∧
    ending (exec (.readHcsr .ordinary) (withShi { base.shi with hcsr := 0x3FFF })) = some (.done (.word 0x003FFF)) ∧
    ending (exec (.readHcsr .bitTest) (withShi { base.shi with hcsr := 0x1001, rxq := opened [1] })) =
      some (.done (.word 0x021001)) := by decide

/-- H3, H4, H15. -/
theorem test_shi_rx_count :
    seen (exec (.hpushShiRx 7) base) (fun s => (s.shi.rxq, s.shi.pendRx)) = some (some (.done .unit), opened [7], 0) ∧
    seen (exec (.hpushShiRx 0x1000007) (withShi { base.shi with hcsr := 0x1001 })) (fun s => (s.shi.rxq, s.shi.pendRx)) =
      some (some (.done .unit), opened [7], 1) ∧
    seen (exec (.hpushShiRx 1) (withShi { base.shi with hcsr := 0x1001, rxq := closed [] })) (fun s => s.shi.pendRx) =
      some (some (.done .endOfStream), 0) := by decide

/-- 44_shi.md R386: E's own write of HRX counts too. -/
theorem test_hrx_write :
    seen (exec (.writeHrx 7) (withShi { base.shi with hcsr := 0x1001 })) (fun s => (s.shi.rxq, s.shi.pendRx)) =
      some (some (.done .unit), opened [7], 1) := by decide

/-- H5, H6, H8. -/
theorem test_shi_modes :
    seen (exec .exec (withShi { base.shi with hcsr := 0x3001, pendRx := 1, rxq := opened [7] }))
      (fun s => (s.shi.pendRx, s.hist)) = some (some (.done .unit), 0, []) ∧
    seen (exec .exec (withShi { base.shi with hcsr := 0x2001, pendRx := 1, rxq := opened [7] }))
      (fun s => (s.shi.pendRx, s.hist)) = some (some (.done .unit), 0, []) ∧
    seen (exec .exec (withShi { base.shi with hcsr := 0x1800, pendRx := 2, pendTx := 1 }))
      (fun s => (s.shi.pendRx, s.shi.pendTx, s.hist)) = some (some (.done .unit), 2, 1, []) := by decide

/-- H7, S7. -/
theorem test_shi_order :
    seen (exec .exec (withShi { base.shi with hcsr := 0x1801, pendRx := 1, pendTx := 1 }))
      (fun s => (s.shi.pendRx, s.shi.pendTx, s.hist)) = some (some (.done .unit), 0, 1, []) ∧
    seen (exec .exec (withShi { base.shi with hcsr := 0x1801, pendTx := 1 }))
      (fun s => (s.shi.pendTx, s.hist)) = some (some (.done .unit), 0, [.inject 0x24]) ∧
    seen (exec .exec (withShi { base.shi with hcsr := 0x1001, pendRx := 3, rxq := opened [1, 2, 3] }))
      (fun s => (s.shi.pendRx, s.hist)) = some (some (.done .unit), 2, [.inject 0x20]) := by decide

/-- H10. -/
theorem test_hrx_read :
    seen (exec .readBtHrx (withQueue .shiRx (opened [5, 6]))) (fun s => s.shi.rxq) =
      some (some (.done (.word 5)), opened [5, 6]) ∧
    seen (exec .readHrx (withQueue .shiRx (opened [5, 6]))) (fun s => s.shi.rxq) =
      some (some (.done (.word 5)), opened [6]) := by decide

/-- H11: the read holds; the resumed read takes the host's word. -/
theorem test_hrx_hold :
    (after (exec .readHrx base)).map (fun s => s.e.held) = some (some (.queue .hrxRead .bare)) ∧
    seen (resume .e { withShi { base.shi with hcsr := 0x1001, rxq := opened [9], pendRx := 1 } with
        e := { status := .live, held := some (.queue .hrxRead .bare) } }) (fun s => (s.shi.rxq, s.shi.pendRx, s.e.held)) =
      some (some (.done (.word 9)), opened [], 1, none) := by decide

/-- H12, H13. -/
theorem test_htx :
    seen (exec (.writeHtx 0xABCDEF) base) (fun s => (s.shi.txq, s.shi.pendTx)) =
      some (some (.done .unit), opened [0xABCDEF], 1) ∧
    seen (exec (.readHtx .ordinary) base) (fun s => s.hist) =
      some (some (.done (.word 0)), [.log (.writeOnlyRead .htx)]) := by decide

/-- H14. -/
theorem test_shi_storage :
    seen (exec (.writeHckr 0x12) base) (fun s => (s.shi.hckr, s.shi.hsar)) = some (some (.done .unit), 0x12#24, 0#24) ∧
    seen (exec (.writeHsar 0x34) base) (fun s => (s.shi.hckr, s.shi.hsar)) = some (some (.done .unit), 0#24, 0x34#24) ∧
    ending (exec (.readHckr .ordinary) (withShi { base.shi with hckr := 0x12, hsar := 0x34 })) = some (.done (.word 0x12)) ∧
    ending (exec (.readHsar .bitTest) (withShi { base.shi with hckr := 0x12, hsar := 0x34 })) = some (.done (.word 0x34)) := by
  decide

/-! ### The debugger -/

/-- D1, D2, and 45_debugger.md R432. -/
theorem test_breakpoints :
    seen (exec (.bkptSet 0x100#24) (withDbg { mode := .stopped, bps := [0x100#24, 0x200#24] })) (fun s => s.dbg.bps) =
      some (some (.done .unit), [0x100#24, 0x200#24]) ∧
    seen (exec (.bkptDel 0x200#24) (withDbg { mode := .stopped, bps := [0x100#24] })) (fun s => s.dbg.bps) =
      some (some (.done .unit), [0x100#24]) ∧
    seen (exec (.bkptDel 0x100#24) (withDbg { mode := .stopped, bps := [0x100#24] })) (fun s => s.dbg.bps) =
      some (some (.done .unit), []) := by decide

/-- D3, D4. -/
theorem test_continue :
    seen (exec (.cont 2) (withDbg { mode := .running (some 5), bps := [] })) (fun s => s.dbg.mode) =
      some (some (.done .unit), .running (some 2)) ∧
    seen (exec (.cont 0) base) (fun s => s.dbg.mode) = some (some (.done .unit), .running none) := by decide

/-- D5, D6: it holds; at a breakpoint it stops with nothing executed. -/
theorem test_dstep_stops :
    (after (exec .dstep base)).map (fun s => s.e.held) = some (some .debugger) ∧
    seen (exec .dstep (withDbg { mode := .running (some 3), bps := [0x100#24] })) (fun s => (s.dbg.mode, s.core.pc)) =
      some (some (.done .unit), .stopped, 0x100) := by decide

/-- D7, D8: it executes. -/
theorem test_dstep_executes :
    seen (exec .dstep (withDbg { mode := .running (some 1), bps := [] })) (fun s => (s.dbg.mode, s.core.pc)) =
      some (some (.done .unit), .stopped, 0x101) ∧
    seen (exec .dstep (withDbg { mode := .running none, bps := [] })) (fun s => (s.dbg.mode, s.core.pc)) =
      some (some (.done .unit), .running none, 0x101) := by decide

/-! ### Host streams and BOOT -/

/-- S-1, and 47_host_streams.md R503 on each channel. -/
theorem test_host_push :
    seen (exec (.hpushEsaiIn0 0x1000001) base) (fun s => s.esai.inq) =
      some (some (.done .unit), #v[opened [1], opened [], opened [], opened []]) ∧
    seen (exec (.hpushEsaiIn1 2) base) (fun s => s.esai.inq) =
      some (some (.done .unit), #v[opened [], opened [2], opened [], opened []]) ∧
    seen (exec (.hpushEsaiIn2 3) base) (fun s => s.esai.inq) =
      some (some (.done .unit), #v[opened [], opened [], opened [3], opened []]) ∧
    seen (exec (.hpushEsaiIn3 4) base) (fun s => s.esai.inq) =
      some (some (.done .unit), #v[opened [], opened [], opened [], opened [4]]) := by decide

/-- S-2, S-3. -/
theorem test_host_no_channel :
    seen (exec (.hpushEsaiIn4to7 4 5) base) (fun s => s.esai) = some (some (.done .endOfStream), base.esai) ∧
    seen (exec (.hpopEsaiOut6to7 6) base) (fun s => s.esai) = some (some (.done .endOfStream), base.esai) := by decide

/-- S-4, and 47_host_streams.md R504 on each channel. -/
theorem test_host_pop :
    let s := { base with esai := { base.esai with
      outq := #v[opened [1], opened [5, 5], opened [3], opened [4], opened [6], opened [7]] } }
    ending (exec .hpopEsaiOut0 s) = some (.done (.word 1)) ∧
    seen (exec .hpopEsaiOut1 s) (fun s => s.esai.outq[1]) = some (some (.done (.word 5)), opened [5]) ∧
    ending (exec .hpopEsaiOut2 s) = some (.done (.word 3)) ∧ ending (exec .hpopEsaiOut3 s) = some (.done (.word 4)) ∧
    ending (exec .hpopEsaiOut4 s) = some (.done (.word 6)) ∧ ending (exec .hpopEsaiOut5 s) = some (.done (.word 7)) := by
  decide

/-- S-5: the pop holds; resumed after the shutdown it ends in end-of-stream. -/
theorem test_host_hold :
    (after (exec .hpopShiTx { base with issuer := .h 1 })).map (fun s => s.hosts) = some [(.h 1, .pop .shiTx)] ∧
    seen (resume (.h 1) { withQueue .shiTx (closed []) with hosts := [(.h 1, .pop .shiTx)] }) (fun s => s.hosts) =
      some (some (.done .endOfStream), []) := by decide

/-- S10, S-7: the address wraps, and the PC is set last. -/
theorem test_boot :
    seen (exec .boot (withQueue .shiRx (opened [2, 0x1000, 0xAAAAAA, 0xBBBBBB]))) (fun s => (s.hist, s.shi.rxq, s.core.pc)) =
      some (some (.done .unit), [.pmemSet 0x1000 0xAAAAAA, .pmemSet 0x1001 0xBBBBBB, .setPc 0x1000], opened [], 0x1000) ∧
    seen (exec .boot (withQueue .shiRx (opened [2, 0xFFFFFF, 1, 2]))) (fun s => s.hist) =
      some (some (.done .unit), [.pmemSet 0xFFFFFF 1, .pmemSet 0 2, .setPc 0xFFFFFF]) := by decide

/-- S-6, S-8. -/
theorem test_boot_short :
    seen (exec .boot (withQueue .shiRx (opened [0, 0x2000]))) (fun s => s.hist) = some (some (.done .unit), [.setPc 0x2000]) ∧
    (after (exec .boot (withQueue .shiRx (opened [3, 0x10, 5])))).map (fun s => (s.hist, s.e.held)) =
      some ([.pmemSet 0x10 5], some (.queue (.bootWord 0x10 0x11 1) .bare)) := by decide

/-! ### The assembler -/

/-- 30_encoding.md R162: the syntax of P1, P2 and P4. -/
theorem test_assemble :
    assemble (.writeReg .tcr 0xC00003) = (0x100000B5#32, 0xC00003) ∧ assemble (.readBtReg .hrx) = (0x04000094#32, 0) ∧
    assemble (.hpopEsaiOut 6) = (0x60000026#32, 0) ∧ assemble (.write .y 0xE6#24 7) = (0x180000E6#32, 7) ∧
    asmEntry ⟨some .s, .terminate⟩ = .issue .s 0x40000000#32 0 ∧ asmEntry ⟨none, .cont 2⟩ = .issue (.c 0) 0x90000000#32 2 := by
  decide

/-! ### Witnesses: states and operands that meet the hypotheses of the statements, clause by clause -/

@[simp] theorem zeros_length (n : Nat) : (zeros n).items.length = n := by simp [zeros]
@[simp] theorem zeros_shut (n : Nat) : (zeros n).shut = false := rfl

/-- The map is the documented one. -/
theorem base_mapped : base.Mapped := by show base.bus.map = regTable; decide

theorem witness_DecodeOfEncode :
    (Instr.hpushEsaiIn4to7 7 5).wf = true ∧ (Instr.hpopEsaiOut8to15 8).wf = true ∧
    (Instr.writeBacking .x 0xA6#24 1).wf = true := by decide

theorem witness_EncodeOfDecode :
    decode 0x60000027#32 0 = .ok (.hpopEsaiOut6to7 7) ∧ decode 0x08FFFFFF#32 0 = .ok (.readBacking .y .ordinary 0xFFFFFF#24) := by
  decide

theorem witness_RefusesExactlyInadmissibleCodes :
    ({ base with sched := [.issue .e 0xBFFFFFFF#32 3] } : State).sched = .issue .e 0xBFFFFFFF#32 3 :: [] := rfl

theorem witness_StepRunsDecodedTransaction :
    decode 0x40000000#32 0 = .ok .terminate ∧ agentMayIssue .s (fieldsOf 0x40000000#32).op = true ∧
    ({ base with sched := [.issue .s 0x40000000#32 0] } : State).ready .s = true ∧
    decodeTableWord 32 0x70123456 = some (.bkptSet 0x123456#24) := by decide

/-- Clause 2: an ending that is an abort; clause 3: a step of an Aborted E; clauses 4 and 5: entries for it. -/
theorem witness_AbortedHasNoFurtherStep :
    (after (step { withQueue .shiRx (closed [1]) with sched := [.issue .e 0x00000094#32 0] })).map (fun t => t.replies) =
      some ([] ++ [⟨.e, .abort⟩]) ∧
    ({ abortedState with sched := [.core (coreAt 1 1)] } : State).e.status = .aborted ∧
    (after (step { abortedState with sched := [.core (coreAt 1 1)] })).isSome = true ∧
    decode 0x20000000#32 0 = .ok .exec ∧ agentMayIssue .e (fieldsOf 0x20000000#32).op = true ∧
    ({ abortedState with sched := [.resume .e] } : State).sched = .resume .e :: [] := by decide

/-- An empty rxq; a tick held at channel 1, whose queue is full, and has room for one word, with the later channel enabled. -/
theorem witness_HeldReadAndHeldExecAreResumed :
    (base.Mapped ∧ base.e = { status := .live, held := none } ∧ base.shi.rxq = { items := [], shut := false }) ∧
    (let s : State := { withEsai { base.esai with tcr := 0x26, outq := base.esai.outq.set 1 (zeros 8192) } 1 with
        e := { status := .live, held := some (.queue (.esaiOut 1 (afterEsai params.order)) .bare) } };
      s.e = { status := .live, held := some (.queue (.esaiOut 1 (afterEsai s.cfg.order)) .bare) } ∧
      s.esai.outq[(1 : Fin 6)].shut = false ∧ 8192 ≤ s.esai.outq[(1 : Fin 6)].items.length) ∧
    (let s : State := { withEsai { base.esai with tcr := 0x26, rcr := 1, outq := base.esai.outq.set 1 (zeros 8191) } 1 with
        e := { status := .live, held := some (.queue (.esaiOut 1 (afterEsai params.order)) .bare) } };
      s.e = { status := .live, held := some (.queue (.esaiOut 1 (afterEsai s.cfg.order)) .bare) } ∧
      s.esai.outq[(1 : Fin 6)].shut = false ∧ s.esai.outq[(1 : Fin 6)].items.length < 8192 ∧
      (∀ d : Fin 6, 1 < d → s.esai.tcr.getLsbD d.val = true →
        s.esai.outq[d].shut = false ∧ s.esai.outq[d].items.length < 8192) ∧ s.InputsOpen) := by
  refine ⟨⟨base_mapped, by decide, by decide⟩, ⟨rfl, rfl, ?_⟩, ⟨rfl, rfl, ?_, ?_, ?_⟩⟩
  · show 8192 ≤ (zeros 8192).items.length; simp
  · show (zeros 8191).items.length < 8192; simp
  · intro d hd _
    have h : ∀ d : Fin 6, 1 < d → (base.esai.outq.set 1 (zeros 8191))[d] = { items := [], shut := false } := by
      intro d hd
      have : d = 2 ∨ d = 3 ∨ d = 4 ∨ d = 5 := by omega
      rcases this with rfl | rfl | rfl | rfl <;> rfl
    show (base.esai.outq.set 1 (zeros 8191))[d].shut = false ∧ (base.esai.outq.set 1 (zeros 8191))[d].items.length < 8192
    rw [h d hd]
    exact ⟨rfl, by decide⟩
  · show ∀ c : Fin 4, _; decide

/-- The register statements ask for the documented map alone. -/
theorem witness_StorageRegistersRead : base.Mapped := base_mapped
theorem witness_StorageRegistersWrite : base.Mapped := base_mapped
theorem witness_WriteOnlyRegistersReadZero : base.Mapped := base_mapped
theorem witness_ReadOnlyRegistersIgnoreWrites : base.Mapped := base_mapped
theorem witness_OdbcReadsZeroAndStoresNothing : base.Mapped := base_mapped
theorem witness_ChidrShowsCoreIndex :
    ({ base with cfg := { params with coreIndex := 0xFF } } : State).Mapped ∧
    ({ base with cfg := { params with coreIndex := 0xFF } } : State).cfg.coreIndex < 2 ^ 8 := ⟨base_mapped, by decide⟩
theorem witness_HcsrStoresAndShowsNotEmpty : base.Mapped := base_mapped
theorem witness_SaisrReadSetsStatusRead : base.Mapped := base_mapped
theorem witness_RxReadIsGated : base.Mapped := base_mapped
theorem witness_TxWriteCompletesTheSet : base.Mapped := base_mapped

theorem witness_HrxOrdinaryReadPops :
    (withQueue .shiRx (opened [5])).Mapped ∧
    (withQueue .shiRx (opened [5])).shi.rxq = { items := 5 :: [], shut := false } ∧
    (withQueue .shiRx (opened [])).shi.rxq = { items := [], shut := false } ∧
    (withQueue .shiRx (closed [5])).shi.rxq.shut = true := ⟨base_mapped, rfl, rfl, rfl⟩

theorem witness_HrxBitTestPeeks :
    (withQueue .shiRx (closed [5])).Mapped ∧ (withQueue .shiRx (closed [5])).shi.rxq.items = 5 :: [] ∧
    base.shi.rxq.items = [] := ⟨base_mapped, rfl, rfl⟩

/-- One word short of full, full, and shut. -/
theorem witness_HrxWriteContract :
    (withQueue .shiRx (zeros 8191)).Mapped ∧
    ((withQueue .shiRx (zeros 8191)).shi.rxq.shut = false ∧ (withQueue .shiRx (zeros 8191)).shi.rxq.items.length < 8192) ∧
    ((withQueue .shiRx (zeros 8192)).shi.rxq.shut = false ∧ 8192 ≤ (withQueue .shiRx (zeros 8192)).shi.rxq.items.length) ∧
    (withQueue .shiRx (closed [])).shi.rxq.shut = true := by
  refine ⟨base_mapped, ⟨rfl, ?_⟩, ⟨rfl, ?_⟩, rfl⟩
  · show (zeros 8191).items.length < 8192; simp
  · show 8192 ≤ (zeros 8192).items.length; simp

theorem witness_HtxWriteCounts :
    (withQueue .shiTx (zeros 8191)).Mapped ∧
    ((withQueue .shiTx (zeros 8191)).shi.txq.shut = false ∧ (withQueue .shiTx (zeros 8191)).shi.txq.items.length < 8192) ∧
    ((withQueue .shiTx (zeros 8192)).shi.txq.shut = false ∧ 8192 ≤ (withQueue .shiTx (zeros 8192)).shi.txq.items.length) ∧
    (withQueue .shiTx (closed [])).shi.txq.shut = true := by
  refine ⟨base_mapped, ⟨rfl, ?_⟩, ⟨rfl, ?_⟩, rfl⟩
  · show (zeros 8191).items.length < 8192; simp
  · show 8192 ≤ (zeros 8192).items.length; simp

/-- The last offset in range and the first out of it. -/
theorem witness_BackingRead :
    base.Mapped ∧ regAt .x 0xFF#24 = none ∧ (0xFF#24).toNat < base.cfg.backingWords ∧
    regAt .x 0x100#24 = none ∧ base.cfg.backingWords ≤ (0x100#24).toNat := ⟨base_mapped, by decide⟩

theorem witness_BackingWrite :
    base.Mapped ∧ regAt .y 0xFF#24 = none ∧ (0xFF#24).toNat < base.cfg.backingWords ∧
    regAt .y 0x100#24 = none ∧ base.cfg.backingWords ≤ (0x100#24).toNat := ⟨base_mapped, by decide⟩

/-- A core whose instruction writes HRX, reads it, tests it and reads EMBC: at the test rxq is empty. -/
def peekingCore : CoreView :=
  { counter := 5, pc := 0x100, next := ⟨[.write .x 0x94#24 7, .read .x 0x94#24 .ordinary, .read .x 0x94#24 .bitTest,
    .read .y 0xE6#24 .ordinary], 6, 0x101⟩ }

/-- The stops on a single transaction, and a DSTEP whose instruction comes to a bit-test read of an empty rxq. -/
theorem witness_FaultsAreExactlyThese :
    (fresh.bus.map = regTable ∧ Instr.boot.wf = true ∧ Instr.readBtHrx.wf = true ∧ fresh.shi.rxq.items = [] ∧
      faultOf (exec .readBtHrx fresh) = some .peekEmpty) ∧
    (let s : State := { withDbg { mode := .running none, bps := [] } with core := peekingCore };
      s.bus.map = regTable ∧ s.bus.bound = true ∧ s.e = { status := .live, held := none } ∧ s.dbg.mode = .running none ∧
      BitVec.ofNat 24 s.core.pc ∉ s.dbg.bps ∧
      s.core.next.txns = [.write .x 0x94#24 7, .read .x 0x94#24 .ordinary] ++ .read .x 0x94#24 .bitTest ::
        [.read .y 0xE6#24 .ordinary] ∧
      (accesses [.write .x 0x94#24 7, .read .x 0x94#24 .ordinary] s).map (fun u => u.shi.rxq.items) = some [] ∧
      faultOf (exec .dstep s) = some .peekEmpty) := by decide

theorem witness_ExecDeliversShi :
    (withShi { base.shi with hcsr := 0x3001, pendRx := 1 }).bus.bound = true ∧
    te (withShi { base.shi with hcsr := 0x3001, pendRx := 1 }) = 0#6 := by decide

/-- The accumulator one below the period. -/
theorem witness_ExecBelowPeriodOnlyAccumulates :
    let s := withEsai { base.esai with tcr := 0x20, acc := 1, snap := 0xFFFFFFFF } 1
    s.bus.bound = true ∧ te s ≠ 0#6 ∧ s.esai.acc + elapsedNow s < s.cfg.cps := by decide

/-- The accumulator exactly at the period. -/
theorem witness_ExecTransferTick :
    let s := withEsai { base.esai with tcr := 0x21, rcr := 0x8, acc := 3 } 1
    s.bus.bound = true ∧ te s ≠ 0#6 ∧ s.cfg.cps ≤ s.esai.acc + elapsedNow s ∧ s.OutputsReady ∧ s.InputsOpen := by
  refine ⟨rfl, by decide, by decide, ?_, ?_⟩
  · show ∀ c : Fin 6, _; decide
  · show ∀ c : Fin 4, _; decide

/-- Channel 1 full, and channel 1 shut; channel 0 takes its word. -/
theorem witness_ExecHoldsOrAbortsAtOutput :
    (let s := withEsai { base.esai with tcr := 0x3, acc := 3, outq := base.esai.outq.set 1 (zeros 8192) } 1;
      s.bus.bound = true ∧ s.cfg.cps ≤ s.esai.acc + elapsedNow s ∧ s.esai.tcr.getLsbD (1 : Fin 6).val = true ∧
      (∀ d : Fin 6, d < 1 → s.esai.tcr.getLsbD d.val = true →
        s.esai.outq[d].shut = false ∧ s.esai.outq[d].items.length < 8192) ∧
      8192 ≤ s.esai.outq[(1 : Fin 6)].items.length ∧ s.esai.outq[(1 : Fin 6)].shut = false) ∧
    (let s := withEsai { base.esai with tcr := 0x3, acc := 3, outq := base.esai.outq.set 1 (closed []) } 1;
      s.bus.bound = true ∧ s.cfg.cps ≤ s.esai.acc + elapsedNow s ∧ s.esai.tcr.getLsbD (1 : Fin 6).val = true ∧
      (∀ d : Fin 6, d < 1 → s.esai.tcr.getLsbD d.val = true →
        s.esai.outq[d].shut = false ∧ s.esai.outq[d].items.length < 8192) ∧
      s.esai.outq[(1 : Fin 6)].shut = true) := by
  refine ⟨⟨rfl, by decide, by decide, ?_, ?_, rfl⟩, rfl, by decide, by decide, by decide, rfl⟩
  · intro d hd _
    have : d = 0 := by omega
    subst this
    exact ⟨rfl, by decide⟩
  · show 8192 ≤ (zeros 8192).items.length; simp

theorem witness_ExecAbortsAtShutInput :
    let s := withEsai { base.esai with tcr := 0x1, rcr := 0x3, acc := 3, inq := base.esai.inq.set 1 (closed [7]) } 1
    s.bus.bound = true ∧ te s ≠ 0#6 ∧ s.cfg.cps ≤ s.esai.acc + elapsedNow s ∧ s.OutputsReady ∧
    s.esai.rcr.getLsbD (1 : Fin 4).val = true ∧ s.esai.inq[(1 : Fin 4)].shut = true ∧
    (∀ d : Fin 4, d < 1 → s.esai.rcr.getLsbD d.val = true → s.esai.inq[d].shut = false) := by
  refine ⟨rfl, by decide, by decide, ?_, by decide, rfl, by decide⟩
  show ∀ c : Fin 6, _
  decide

theorem witness_ExecRequestsAtMostThree : (after (exec .exec base)).isSome = true := by decide

/-- The highest channel disabled, and both of its clauses' transactions with a next state. -/
theorem witness_DisabledChannelGetsNothing :
    let s := withEsai { base.esai with tcr := 0x1F, acc := 3 } 1
    s.esai.tcr.getLsbD (5 : Fin 6).val = false ∧ s.bus.map = regTable ∧
    (after (exec (decodeWrite .x (0xA0#24 + BitVec.ofNat 24 (5 : Fin 6).val) 9) s)).isSome = true ∧
    (after (exec .exec s)).isSome = true := by decide

theorem witness_PendingCountersFallByOne :
    (after (exec .exec (withShi { base.shi with hcsr := 0x1801, pendTx := 1 }))).isSome = true := by decide

/-- The runs of A3, where a gap exceeds the period, and of program P1's eight EXECs; the second meets the last clause too. -/
theorem witness_AccumulatorConserved :
    (let s := withEsai { base.esai with tcr := 0x1 } 0;
      s.bus.bound = true ∧ te s ≠ 0#6 ∧ s.esai.snap = s.core.counter % 2 ^ s.cfg.cycW ∧
      (∀ d ∈ [10, 1, 1, 1], d < 2 ^ s.cfg.cycW) ∧ s.e = { status := .live, held := none } ∧
      (feed [10, 1, 1, 1] s).isSome = true) ∧
    (let s := withEsai { base.esai with tcr := 0x1, acc := 3 } 0;
      s.bus.bound = true ∧ te s ≠ 0#6 ∧ s.esai.snap = s.core.counter % 2 ^ s.cfg.cycW ∧
      (∀ d ∈ [4, 1, 1], d < 2 ^ s.cfg.cycW) ∧ s.e = { status := .live, held := none } ∧
      (feed [4, 1, 1] s).isSome = true ∧ 1 ≤ s.cfg.cps ∧ s.esai.acc < s.cfg.cps ∧ ∀ d ∈ [4, 1, 1], d ≤ s.cfg.cps) := by
  decide

/-- S5's numbers: CPS = 4, k = 2, with the output queue just large enough. -/
theorem witness_PacingIsExact :
    let s := withEsai { base.esai with tcr := 0x1, outq := base.esai.outq.set 0 (zeros 8190) } 0
    s.bus.bound = true ∧ te s ≠ 0#6 ∧ 1 ≤ s.cfg.cps ∧ s.esai.acc = 0 ∧ s.esai.snap = s.core.counter % 2 ^ s.cfg.cycW ∧
    (∀ d ∈ [1, 3, 4], d ≤ s.cfg.cps ∧ d < 2 ^ s.cfg.cycW) ∧ [1, 3, 4].sum = 2 * s.cfg.cps ∧
    s.e = { status := .live, held := none } ∧ s.InputsOpen ∧
    (∀ c : Fin 6, s.esai.tcr.getLsbD c.val = true →
      s.esai.outq[c].shut = false ∧ s.esai.outq[c].items.length + 2 ≤ 8192) := by
  refine ⟨rfl, by decide, by decide, rfl, by decide, by decide, by decide, rfl, ?_, ?_⟩
  · show ∀ c : Fin 4, _; decide
  · intro c hc
    have h : ∀ c : Fin 6, (0x1#24).getLsbD c.val = true → c = 0 := by decide
    obtain rfl := h c hc
    refine ⟨rfl, ?_⟩
    show (zeros 8190).items.length + 2 ≤ 8192
    simp

theorem witness_HostPushShiRx :
    ((withQueue .shiRx (zeros 8191)).shi.rxq.shut = false ∧ (withQueue .shiRx (zeros 8191)).shi.rxq.items.length < 8192) ∧
    ((withQueue .shiRx (zeros 8192)).shi.rxq.shut = false ∧ 8192 ≤ (withQueue .shiRx (zeros 8192)).shi.rxq.items.length) ∧
    (withQueue .shiRx (closed [])).shi.rxq.shut = true := witness_HrxWriteContract.2

theorem witness_HostPushEsaiIn :
    ((3 : Fin 4) = 3 ∧ Instr.hpushEsaiIn3 9 = .hpushEsaiIn3 9) ∧
    ((withQueue (.inp 3) (zeros 8191)).esai.inq[(3 : Fin 4)].shut = false ∧
      (withQueue (.inp 3) (zeros 8191)).esai.inq[(3 : Fin 4)].items.length < 8192) ∧
    ((withQueue (.inp 3) (zeros 8192)).esai.inq[(3 : Fin 4)].shut = false ∧
      8192 ≤ (withQueue (.inp 3) (zeros 8192)).esai.inq[(3 : Fin 4)].items.length) ∧
    (withQueue (.inp 3) (closed [])).esai.inq[(3 : Fin 4)].shut = true := by
  refine ⟨⟨rfl, rfl⟩, ⟨rfl, ?_⟩, ⟨rfl, ?_⟩, rfl⟩
  · show (zeros 8191).items.length < 8192; simp
  · show 8192 ≤ (zeros 8192).items.length; simp

theorem witness_HostPopShiTx :
    (withQueue .shiTx (opened [5])).shi.txq = { items := 5 :: [], shut := false } ∧
    base.shi.txq = { items := [], shut := false } ∧ (withQueue .shiTx (closed [5])).shi.txq.shut = true := ⟨rfl, rfl, rfl⟩

theorem witness_HostPopEsaiOut :
    ((5 : Fin 6) = 5 ∧ Instr.hpopEsaiOut5 = .hpopEsaiOut5) ∧
    (withQueue (.out 5) (opened [5])).esai.outq[(5 : Fin 6)] = { items := 5 :: [], shut := false } ∧
    base.esai.outq[(5 : Fin 6)] = { items := [], shut := false } ∧
    (withQueue (.out 5) (closed [5])).esai.outq[(5 : Fin 6)].shut = true := ⟨⟨rfl, rfl⟩, rfl, rfl, rfl⟩

/-- A full queue. -/
theorem witness_QueueIsFifo : (zeros 8192).shut = false ∧ (zeros 8192).items.length ≤ 8192 := ⟨rfl, by simp⟩

theorem witness_ShutdownIsPermanent :
    (after (step { withQueue .shiRx (closed [1]) with sched := [.issue (.h 0) 0x50000000#32 7] })).isSome = true ∧
    (State.queue .shiRx { withQueue .shiRx (closed [1]) with sched := [.issue (.h 0) 0x50000000#32 7] }).shut = true := by
  decide

/-- E held in a push of a tick, a host held in a pop, and the teardown; and E held in the debugger wait, at a breakpoint and at
none. -/
theorem witness_TeardownReleasesEveryone :
    (let s : State := { base with
        e := { status := .live, held := some (.queue (.esaiOut 0 [.ccm]) .coreExec) }
        hosts := [(.h 1, .pop .shiTx)]
        sched := [.issue .s 0x40000000#32 0, .issue .s 0x90000000#32 0, .resume .e] };
      s.sched = (pseudoExpand .teardown).map asmEntry ++ [.resume .e] ∧ s.hostFree .s = true ∧
      s.e = { status := .live, held := some (.queue (.esaiOut 0 [.ccm]) .coreExec) } ∧
      s.hosts.lookup (.h 1) = some (.pop .shiTx)) ∧
    (let s : State := { base with
        e := { status := .live, held := some .debugger }
        sched := [.issue .s 0x40000000#32 0, .issue .s 0x90000000#32 0, .resume .e] };
      s.sched = (pseudoExpand .teardown).map asmEntry ++ [.resume .e] ∧ s.hostFree .s = true ∧
      s.e = { status := .live, held := some .debugger } ∧
      BitVec.ofNat 24 ({ s with dbg := { mode := .stopped, bps := [0x100#24] } } : State).core.pc ∈ [0x100#24] ∧
      BitVec.ofNat 24 s.core.pc ∉ s.dbg.bps ∧ s.bus.map = regTable) := by decide

theorem witness_DstepHoldsAndStops :
    base.bus.bound = true ∧ base.dbg.mode = .stopped ∧
    (withDbg { mode := .running (some 3), bps := [0x100#24] }).dbg.mode = .running (some 3) ∧
    BitVec.ofNat 24 (withDbg { mode := .running (some 3), bps := [0x100#24] }).core.pc ∈
      (withDbg { mode := .running (some 3), bps := [0x100#24] }).dbg.bps := by decide

/-- A core whose instruction enables output channel 0 and the TX interrupt and writes TX0, and whose EXEC is a transfer tick. -/
def tickingCore : CoreView :=
  { counter := 1, pc := 0x100, next := { txns := [.write .x 0xB5#24 0x400001, .write .x 0xA0#24 9], counter := 5, pc := 0x101 } }

/-- An instruction with accesses whose EXEC ticks, one with none, and the one of the second clause. -/
theorem witness_DstepExecutesOneInstruction :
    (let s : State := { withDbg { mode := .running (some 2), bps := [0x101#24] } with core := tickingCore };
      s.bus.bound = true ∧ s.e = { status := .live, held := none } ∧ s.dbg.mode = .running (some 2) ∧ some 2 ≠ some 0 ∧
      BitVec.ofNat 24 s.core.pc ∉ s.dbg.bps ∧
      ((accesses s.core.next.txns s).bind fun u =>
        (after (exec .exec { u with core := { u.core with counter := s.core.next.counter, pc := s.core.next.pc } })).map
          fun w => (decide (w.e = u.e), w.hist, w.esai.outq[(0 : Fin 6)].items)) = some (true, [.inject 0x10], [9])) ∧
    (let s := withDbg { mode := .running none, bps := [] };
      s.core.next.txns = [] ∧ accesses s.core.next.txns s = some s) ∧
    (let s : State := { withDbg { mode := .running (some 1), bps := [0x101#24] } with
        core := ⟨5, 0x100, ⟨[.write .y 0xE6#24 7, .read .y 0xE6#24 .ordinary], 6, 0x101⟩⟩ };
      s.bus.map = regTable ∧ s.bus.bound = true ∧ te s = 0#6 ∧ hen s = false ∧ s.dbg.mode = .running (some 1) ∧
      some 1 ≠ some 0 ∧ BitVec.ofNat 24 s.core.pc ∉ s.dbg.bps ∧
      s.core.next.txns = [.write .y 0xE6#24 7, .read .y 0xE6#24 .ordinary]) := by decide

theorem witness_NoStepOver :
    let s := withDbg { mode := .stopped, bps := [0x100#24] }
    s.bus.bound = true ∧ BitVec.ofNat 24 s.core.pc = 0x100#24 ∧ (0x100#24 : Word) ∈ s.dbg.bps := by decide

/-- Part of the count, and all of it. -/
theorem witness_CountedRunLaw :
    let vs := [coreAt 1 0x100, coreAt 2 0x101]
    1 ≤ 2 ∧ base.bus.bound = true ∧ base.e = { status := .live, held := none } ∧
    (after (exec (.cont 2) base)).isSome = true ∧ vs.length ≤ 2 ∧ vs.length = 2 ∧
    (∀ v ∈ vs, BitVec.ofNat 24 v.pc ∉ base.dbg.bps) ∧
    ((after (exec (.cont 2) base)).bind (dsteps vs)).isSome = true ∧
    ((after (exec (.cont 3) base)).bind (dsteps vs)).isSome = true := by decide

theorem witness_BootLoadsAndStarts :
    let s := withQueue .shiRx (opened [2, 0xFFFFFF, 1, 2, 9])
    s.bus.bound = true ∧ ([1, 2] : List Word).length = (2#24).toNat ∧
    s.shi.rxq = { items := 2 :: 0xFFFFFF :: ([1, 2] ++ [9]), shut := false } := by decide

theorem witness_BootHoldsForMissingWords :
    let s := withQueue .shiRx (opened [3, 0x10, 5, 6])
    s.bus.bound = true ∧ ([5, 6] : List Word).length < (3#24).toNat ∧ s.e = { status := .live, held := none } ∧
    s.shi.rxq = { items := 3 :: 0x10 :: [5, 6], shut := false } := by decide

theorem witness_BitFieldLaws :
    (1 ≤ 4 ∧ 8 + 4 ≤ 24) ∧ 15 < 2 ^ 4 ∧ Desc.disjoint ⟨8, 4, by decide⟩ ⟨12, 12, by decide⟩ = true := by decide

/-- The last position of the widest field, and the first beyond it. -/
theorem witness_SetViewTest :
    23 < (⟨0, 24, by decide⟩ : Desc).w ∧ (⟨0, 24, by decide⟩ : Desc).w ≤ 24 := by decide

/-- The default state meets the invariant, and a step of it has a next state. -/
theorem witness_StepKeepsInv : ({ base with sched := [.issue .e 0x180000E6#32 5] } : State).Inv ∧
    (after (step { base with sched := [.issue .e 0x180000E6#32 5] })).isSome = true := by
  refine ⟨?_, by decide⟩
  constructor
  · exact base_mapped
  · decide
  · decide
  · intro id
    cases id with
    | shiRx => decide
    | shiTx => decide
    | out c => revert c; show ∀ c : Fin 6, _; decide
    | inp c => revert c; show ∀ c : Fin 4, _; decide
  · decide
  · decide
  · decide
  · decide
  · decide

theorem witness_StepOnlyAppendsRecords :
    (after (step { base with sched := [.issue .e 0x180000E6#32 5] })).isSome = true ∧ base.bus.bound = true := by decide

/-- A host that issues, a host that goes on, and a move of the core. -/
theorem witness_OtherAgentsTouchNoRegister :
    Agent.h 0 ≠ .e ∧ (after (step { base with sched := [.issue (.h 0) 0x50000000#32 7] })).isSome = true ∧
    (after (step { base with sched := [.resume (.h 1)], hosts := [(.h 1, .pop .shiTx)] })).isSome = true ∧
    (after (step { base with sched := [.core (coreAt 9 9)] })).isSome = true := by decide

end Sys2Proof.Tests
end

/-! PROOFS. The scope of the machine (00_scope.md): a step runs the transaction the schedule names, and a held transaction is
resumed and not restarted. -/

namespace Sys2Proof.Machine

open Sys2Proof.Claims

/-! ### The schedule: issuing a transaction -/

/-- A code that decodes has one of the twelve operations (30_encoding.md R142, R160 (a)). -/
theorem op_lt_of_decode {code : Code} {operand : Nat} {i : Instr} (h : decode code operand = .ok i) :
    (fieldsOf code).op.toNat < 12 := by
  by_contra hop
  have hc : checkFields (fieldsOf code) operand = some .reservedOp := by
    simp [checkFields, Nat.not_lt.1 hop]
  simp [decode, hc] at h

/-- The agent that R142 names first for an operation may issue it. -/
theorem agentMayIssue_defaultAgent {op : BitVec 4} (h : op.toNat < 12) : agentMayIssue (defaultAgent op) op = true := by
  revert op; decide

/-- An agent made ready is ready (log 8). -/
theorem State.ready_makeReady (s : State) (ag : Agent) : (s.makeReady ag).ready ag = true := by
  have free : (s.freeHost ag).hostFree ag = true := by
    simp only [State.hostFree, State.freeHost, Option.isNone_iff_eq_none, List.lookup_eq_none_iff, List.mem_filter]
    rintro p ⟨-, hne⟩
    exact bne_iff_ne.2 (Ne.symm (of_decide_eq_true hne))
  cases ag with
  | e => rfl
  | h _ => exact free
  | c _ => exact free
  | s => exact free

/-- The schedule does not decide whether an agent is ready (00_scope.md R13). -/
theorem State.ready_sched (s : State) (l : List Entry) (ag : Agent) :
    ({ s with sched := l } : State).ready ag = s.ready ag := by
  cases ag <;> rfl

/-- What a 32-bit table word is read as is what its code and operand decode to (30_encoding.md R140). -/
theorem decode_of_decodeTableWord {w : Nat} {i : Instr} (h : decodeTableWord 32 w = some i) :
    decode (BitVec.ofNat 32 (w % 2 ^ 32)) (w % 2 ^ 32 / 2 ^ 32) = .ok i := by
  unfold decodeTableWord at h
  split at h
  · next j hj => rw [hj, Option.some.inj h]
  · cases h

/-- A ready agent's transaction at the head of the schedule is run (00_scope.md R12; log 3). -/
theorem step_issue {s : State} {ag : Agent} {code : Code} {operand : Nat} {rest : List Entry} {i : Instr}
    (hs : s.sched = .issue ag code operand :: rest) (hd : decode code operand = .ok i)
    (ha : agentMayIssue ag (fieldsOf code).op = true) (hr : s.ready ag = true) :
    step s = exec i { s with sched := rest, issuer := ag } := by
  have hf : fetch s = .run i { s with sched := rest, issuer := ag } := by
    simp [fetch, hs, fetchIssue, hd, ha, State.ready_sched, hr]
  simp [step, hf]

/-- A transaction put before the schedule, with its agent made ready, is the one the next step runs (log 8). -/
theorem step_placed (s : State) {ag : Agent} {code : Code} {operand : Nat} {i : Instr}
    (hd : decode code operand = .ok i) (ha : agentMayIssue ag (fieldsOf code).op = true) :
    step { s.makeReady ag with sched := .issue ag code operand :: (s.makeReady ag).sched } =
      exec i { s.makeReady ag with issuer := ag } :=
  step_issue rfl hd ha (by rw [State.ready_sched, State.ready_makeReady])

/-- Settles O5: the head of the schedule decides, and `withFetchWord` places a head that meets its conditions. -/
theorem stepRunsDecodedTransaction : Obligations.StepRunsDecodedTransaction := by
  refine ⟨fun _ _ _ _ _ _ hs hd ha hr => step_issue hs hd ha hr, fun s w i hw => ?_⟩
  have hd := decode_of_decodeTableWord hw
  have hcode : BitVec.ofNat 32 (w % 2 ^ 32) = BitVec.ofNat 32 w :=
    BitVec.eq_of_toNat_eq (by simp only [BitVec.toNat_ofNat, Nat.mod_mod])
  rw [← hcode]
  exact step_placed s hd (agentMayIssue_defaultAgent (op_lt_of_decode hd))

/-! ### The SHI: its count and its tick, in bits -/

/-- HRIE is 0 exactly when its two bits are (10_state.md R34). -/
theorem hrie_ne_zero_iff (s : State) : s.shi.hrie ≠ 0 ↔ hrie s ≠ 0#2 :=
  not_congr (s.shi.hrie_eq_iff 0 (by decide))

/-- The RX write contract counts as `rxCounted` says, and changes nothing else (44_shi.md R386). -/
theorem State.countRx_eq (s : State) : s.countRx = { s with shi := { s.shi with pendRx := rxCounted s } } := by
  have hc : s.shi.rxCounted = true ↔ hen s = true ∧ hrie s ≠ 0#2 := by
    rw [← hrie_ne_zero_iff]; simp [ShiState.rxCounted, hen]
  by_cases h : hen s = true ∧ hrie s ≠ 0#2
  · rw [State.countRx, if_pos (hc.2 h), rxCounted, if_pos h]
  · rw [State.countRx, if_neg (mt hc.1 h), rxCounted, if_neg h]

/-- The RX branch of the SHI tick takes one off the count and requests what the mode says (44_shi.md R380, R382). -/
theorem State.shiDeliverRx_eq (s : State) : s.shiDeliverRx =
    { s with
      shi := { s.shi with pendRx := s.shi.pendRx - 1 }
      hist := s.hist ++
        (if hrie s = 1#2 ∧ s.shi.rxq.items ≠ [] then [.inject s.cfg.vecShiRne]
        else if hrie s = 3#2 ∧ s.shi.rxq.items.length = 8192 then [.inject s.cfg.vecShiRff]
        else []) } := by
  have h1 : s.shi.hrie = 1 ↔ hrie s = 1#2 := s.shi.hrie_eq_iff 1 (by decide)
  have h3 : s.shi.hrie = 3 ↔ hrie s = 3#2 := s.shi.hrie_eq_iff 3 (by decide)
  have hempty : s.shi.rxq.isEmpty = true ↔ s.shi.rxq.items = [] := by simp [Queue.isEmpty, Queue.count]
  have hfull : s.shi.rxq.isFull = true ↔ s.shi.rxq.items.length = 8192 := decide_eq_true_iff
  simp only [State.shiDeliverRx, h1, h3, hempty, hfull]
  by_cases hr : hrie s = 1#2
  · by_cases he : s.shi.rxq.items = [] <;> simp [hr, he, State.inject, State.event]
  · by_cases hf : hrie s = 3#2
    · by_cases hl : s.shi.rxq.items.length = 8192 <;> simp [hf, hl, State.inject, State.event]
    · simp [hr, hf]

/-- The SHI tick is `shiTicked` with the requests `shiRequests` (44_shi.md R380-R382). -/
theorem State.shiExec_eq (s : State) :
    s.shiExec = { s with shi := shiTicked s, hist := s.hist ++ shiRequests s } := by
  have hH : s.shi.hen = hen s := s.shi.hen_eq
  have hT : s.shi.htie = htie s := s.shi.htie_eq
  rw [State.shiExec, shiTicked, shiRequests, hH, hT]
  cases hen s with
  | false => simp
  | true =>
    by_cases hrx : 0 < s.shi.pendRx ∧ hrie s ≠ 0#2
    · have hrx' : 0 < s.shi.pendRx ∧ s.shi.hrie ≠ 0 := ⟨hrx.1, (hrie_ne_zero_iff s).2 hrx.2⟩
      simp [hrx, hrx', State.shiDeliverRx_eq]
    · have hrx' : ¬ (0 < s.shi.pendRx ∧ s.shi.hrie ≠ 0) := fun h => hrx ⟨h.1, (hrie_ne_zero_iff s).1 h.2⟩
      by_cases htx : htie s = true ∧ 0 < s.shi.pendTx
      · simp [hrx, hrx', htx, State.shiDeliverTx, State.inject, State.event]
      · simp [hrx, hrx', htx]

/-! ### A held read of HRX -/

/-- `READ HRX` with the documented map is the pop of rxq (44_shi.md R384). -/
theorem exec_readHrx {s : State} (hm : s.Mapped) : exec .readHrx s = ((popAt .hrxRead .shiRx s).map .word).endE := by
  show ((busRead .x 0x94#24 .ordinary s).map Result.word).endE = _
  rw [busRead_mapped hm (r := .hrx) (by decide)]
  rfl

/-- A pop of an open queue without a word holds (42_queue.md R272). -/
theorem popAt_hold (p : HoldPoint) {id : QId} {s : State} (h : s.queue id = { items := [], shut := false }) :
    popAt p id s = .hold p s := by
  simp [popAt, h, Queue.pop_block]

/-- A pop of an open queue gives its oldest word (42_queue.md R272). -/
theorem popAt_done (p : HoldPoint) {id : QId} {s : State} {w : Word} {ws : List Word}
    (h : s.queue id = { items := w :: ws, shut := false }) :
    popAt p id s = .done w (s.setQueue id { items := ws, shut := false }) := by
  simp [popAt, h, Queue.pop_ok _ w ws]

/-- A host's push to an open rxq with room ends, and the word is counted (47_host_streams.md R501, 44_shi.md R386). -/
theorem exec_hpushShiRx_done {s : State} (v : Nat) (ho : s.shi.rxq.shut = false)
    (hl : s.shi.rxq.items.length < Config.qcap) :
    exec (.hpushShiRx v) s = .next (State.reply s.issuer (.done .unit)
      { s with shi := { s.shi with
          rxq := { items := s.shi.rxq.items ++ [BitVec.ofNat 24 v], shut := false }
          pendRx := rxCounted s } }) := by
  show hostRun s.issuer (.push .shiRx (trunc24 v)) s = _
  have hp : (s.queue .shiRx).push (trunc24 v) = _ := Queue.push_ok s.shi.rxq _ ho hl
  simp only [hostRun, hostTry, hp, State.afterHostPush, State.countRx_eq]
  rfl

/-- A transaction of E held at a queue primitive, and no more than this part, goes on from there (00_scope.md R13). -/
theorem resume_bare {s : State} {p : HoldPoint} (h : s.e = { status := .live, held := some (.queue p .bare) }) :
    resume .e s = (runPoint p { s with e := { status := .live, held := none } }).endE := by
  simp [resume, h, runHeld, frameOutcome, State.freeE]

/-- The resumed read of HRX ends with the oldest word of rxq (44_shi.md R384, 42_queue.md R277). -/
theorem resume_hrxRead {s : State} {w : Word} {ws : List Word}
    (he : s.e = { status := .live, held := some (.queue .hrxRead .bare) })
    (hq : s.shi.rxq = { items := w :: ws, shut := false }) :
    resume .e s = doneWord w { s with
      e := { status := .live, held := none }
      shi := { s.shi with rxq := { items := ws, shut := false } } } := by
  have hpop : popAt .hrxRead .shiRx { s with e := { status := .live, held := none } } = _ := popAt_done .hrxRead hq
  rw [resume_bare he, runPoint, readHrxOrdinary, hpop]
  rfl

/-- The read of HRX over an empty rxq: it holds, a host's word comes in, and the resumed read gives that word
(44_shi.md R384, R386). -/
theorem heldHrxRead_resumed {s : State} (k v : Nat) (hm : s.Mapped) (he : s.e = { status := .live, held := none })
    (hq : s.shi.rxq = { items := [], shut := false }) :
    ∃ t u w, exec .readHrx s = .next t ∧ t.e.held = some (.queue .hrxRead .bare) ∧ t.replies = s.replies ∧
      exec (.hpushShiRx v) { t with issuer := .h k } = .next u ∧
      resume .e u = .next w ∧ w.e = { status := .live, held := none } ∧ w.shi.rxq = { items := [], shut := false } ∧
      w.shi.pendRx = rxCounted s ∧
      w.replies = s.replies ++ [⟨.h k, .done .unit⟩, ⟨.e, .done (.word (BitVec.ofNat 24 v))⟩] := by
  have hread : exec .readHrx s = .next (s.holdE (.queue .hrxRead .bare)) := by
    have hpop : popAt .hrxRead .shiRx s = _ := popAt_hold .hrxRead hq
    rw [exec_readHrx hm, hpop]; rfl
  have hpush := exec_hpushShiRx_done (s := { s.holdE (.queue .hrxRead .bare) with issuer := .h k }) v
    (by simp [hq]) (by simp [hq, Config.qcap])
  refine ⟨_, _, _, hread, rfl, rfl, hpush, resume_hrxRead (w := BitVec.ofNat 24 v) (ws := []) ?_ ?_, rfl, rfl, rfl, ?_⟩
  · simp [he]
  · simp [hq]
  · simp

/-! ### A held EXEC -/

/-- A tick held at a full output queue, resumed, holds again with nothing changed (43_esai.md R314). -/
theorem resume_esaiOut_hold {s : State} {c : Fin 6} {rest : List Periph}
    (he : s.e = { status := .live, held := some (.queue (.esaiOut c rest) .bare) })
    (ho : s.esai.outq[c].shut = false) (hl : Config.qcap ≤ s.esai.outq[c].items.length) : resume .e s = .next s := by
  have hhold : esaiFrom c rest { s with e := { status := .live, held := none } } = .hold (.esaiOut c rest) _ :=
    esaiFrom_hold c rest _ ho hl
  rw [resume_bare he, runPoint, hhold]
  simp [State.holdE, ← he]

/-- The state a resumed EXEC leaves, with the queues and the receive words of its tick: steps 4b to 7 and the SHI tick if it comes
after the ESAI's (43_esai.md R310, 41_bus.md R236). -/
def State.resumedTick (outq : Vector Queue 6) (inq : Vector Queue 4) (rxw : Vector Word 4) (s : State) : State :=
  { s with
    e := { status := .live, held := none }
    shi := if shiFirst s.cfg.order then s.shi else shiTicked s
    esai := { s.esai with
      outq := outq
      inq := inq
      rxw := rxw
      tfs := !s.esai.tfs
      tue := true
      tde := true
      wmask := 0#6
      stRead := false }
    hist := s.hist ++ esaiRequests s ++ (if shiFirst s.cfg.order then [] else shiRequests s) }

/-- A tick held at an output channel, resumed with room there and at the later enabled channels and with the enabled inputs open,
goes through to the end of its EXEC (43_esai.md R310, R314; 41_bus.md R236). -/
theorem resume_esaiOut_done {s : State} {c : Fin 6}
    (he : s.e = { status := .live, held := some (.queue (.esaiOut c (afterEsai s.cfg.order)) .bare) })
    (ho : s.esai.outq[c].shut = false) (hl : s.esai.outq[c].items.length < Config.qcap)
    (hout : ∀ d : Fin 6, c < d → s.esai.tcr.getLsbD d.val = true →
      s.esai.outq[d].shut = false ∧ s.esai.outq[d].items.length < Config.qcap)
    (hin : s.InputsOpen) :
    ∃ (oq : Vector Queue 6) (iq : Vector Queue 4) (rx : Vector Word 4),
      resume .e s = doneUnit (s.resumedTick oq iq rx) ∧
      (∀ d : Fin 6, oq[d] = if d = c ∨ (c < d ∧ s.esai.tcr.getLsbD d.val = true) then
        { items := s.esai.outq[d].items ++ [s.esai.txw[d]], shut := false } else s.esai.outq[d]) ∧
      (∀ d : Fin 4, iq[d] = if s.esai.rcr.getLsbD d.val then
        { items := s.esai.inq[d].items.tail, shut := false } else s.esai.inq[d]) ∧
      (∀ d : Fin 4, rx[d] = if s.esai.rcr.getLsbD d.val then s.esai.inq[d].items.headD 0 else s.esai.rxw[d]) := by
  obtain ⟨oq, hfrom, hoq⟩ := esaiFrom_done c (afterEsai s.cfg.order)
    { s with e := { status := .live, held := none } } ho hl hout
  obtain ⟨iq, rx, htail, hiq, hrx⟩ := esaiTail_done
    { s with e := { status := .live, held := none }, esai := { s.esai with outq := oq } } hin
  refine ⟨oq, iq, rx, ?_, hoq, hiq, hrx⟩
  rw [resume_bare he, runPoint, hfrom, htail, Res.bind_done, fanOut_afterEsai, Res.map_done, Res.endE_done]
  cases hf : shiFirst s.cfg.order with
  | true => simp [doneUnit, State.doneE, State.resumedTick, hf, esaiRequests]
  | false =>
    simp only [State.shiExec_eq, doneUnit, State.doneE, State.resumedTick, hf, esaiRequests, List.append_assoc]
    rfl

/-- Settles O7: the read by running its three stretches, the EXEC by what its tick does from the held push on. -/
theorem heldReadAndHeldExecAreResumed : Obligations.HeldReadAndHeldExecAreResumed := by
  refine ⟨fun s k v hm he hq => heldHrxRead_resumed k v hm he hq, fun s c he ho => ⟨resume_esaiOut_hold he ho, ?_⟩⟩
  intro hl hout hin
  obtain ⟨oq, iq, rx, hres, hoq, hiq, hrx⟩ := resume_esaiOut_done he ho hl hout hin
  exact ⟨s.resumedTick oq iq rx, hres, hoq, hiq, hrx, rfl, rfl, rfl, rfl⟩

end Sys2Proof.Machine

/-! PROOFS. The state of the machine (10_state.md): what it holds at construction, and what no step takes back. -/

namespace Sys2Proof.Machine

/-! ### The construction state -/

/-- Every queue is empty and open at construction (10_state.md R56, R58). -/
theorem State.construct_queue (p : Params) (core : CoreView) (id : QId) :
    (State.construct p core).queue id = Queue.init := by
  cases id with
  | shiRx => rfl
  | shiTx => rfl
  | out c => fin_cases c <;> rfl
  | inp c => fin_cases c <;> rfl

/-- The backing memory is at `backing_init` at construction (10_state.md R33, R58). -/
theorem State.construct_backing (p : Params) (core : CoreView) (a : Area) (off : Word) :
    (State.construct p core).backing a off = initialWord p a off.toNat := by
  cases a <;> rfl

/-- Every transmit word is 0 at construction (10_state.md R43, R58). -/
theorem State.construct_txw (p : Params) (core : CoreView) (c : Fin 6) : (State.construct p core).esai.txw[c] = 0 := by
  fin_cases c <;> rfl

/-- Every receive word is 0 at construction (10_state.md R44, R58). -/
theorem State.construct_rxw (p : Params) (core : CoreView) (c : Fin 4) : (State.construct p core).esai.rxw[c] = 0 := by
  fin_cases c <;> rfl

/-- The debugger is Stopped or runs without a count at construction (10_state.md R53, R58). -/
theorem dbgModeOf_cases (d : DbgInit) : dbgModeOf d = .stopped ∨ dbgModeOf d = .running none := by
  cases d with
  | stopped => exact .inl rfl
  | running => exact .inr rfl

/-- The debugger has no run with a count of 0 at construction (10_state.md R53). -/
theorem dbgModeOf_ne_zero (d : DbgInit) : dbgModeOf d ≠ .running (some 0) := by
  rcases dbgModeOf_cases d with h | h <;> simp [h]

/-- Settles O56: the fields written out in `State.construct`, and the words, queues and memory at each index. -/
theorem constructionValues : Obligations.ConstructionValues :=
  ⟨rfl, rfl, State.construct_backing _ _, rfl, rfl, rfl, rfl, rfl, rfl, rfl, rfl, rfl, rfl, rfl, rfl, rfl,
    State.construct_txw _ _, State.construct_rxw _ _, rfl, rfl, rfl, rfl, State.construct_queue _ _, rfl, rfl, rfl, rfl,
    dbgModeOf_cases _⟩

/-- Settles O57: nothing is stored, queued, counted or held at construction. -/
theorem resetMeetsInv : Obligations.ResetMeetsInv where
  mapped := rfl
  memX := reset_memory_wf.1
  memY := reset_memory_wf.2
  queues id := by
    rw [State.reset, State.construct_queue]
    exact Nat.zero_le _
  mode := dbgModeOf_ne_zero _
  bps := rfl
  snap := Nat.two_pow_pos _
  aborted _ := rfl
  hosts := List.nodup_nil

/-! ### What no step takes back -/

/-- The state `t` may come after `s`, whoever has the steps between: the parameters and the map are the same, a bound engine is still
bound, the records have only grown, and E is Aborted if it was or if an abort of E is among the endings recorded since
(10_state.md R30, R55, R57; 41_bus.md R237, R240). -/
structure State.Evolves (s t : State) : Prop where
  cfg : t.cfg = s.cfg
  map : t.bus.map = s.bus.map
  bound : s.bus.bound = true → t.bus.bound = true
  hist : ∃ evs, t.hist = s.hist ++ evs
  replies : ∃ rs, t.replies = s.replies ++ rs ∧ (⟨.e, .abort⟩ ∈ rs → t.e.status = .aborted)
  aborted : s.e.status = .aborted → t.e.status = .aborted

/-- The next state of an outcome, if it has one, may come after `s`. -/
def State.EvolvesTo (s : State) (o : Out) : Prop := ∀ t, o = .next t → s.Evolves t

/-- An update that leaves the parameters, the bus, the records and E's status. -/
theorem State.Evolves.of_eq {s t : State} (hcfg : t.cfg = s.cfg) (hbus : t.bus = s.bus) (hhist : t.hist = s.hist)
    (hreplies : t.replies = s.replies) (hstatus : t.e.status = s.e.status) : s.Evolves t where
  cfg := hcfg
  map := by rw [hbus]
  bound h := by rw [hbus, h]
  hist := ⟨[], by simp [hhist]⟩
  replies := ⟨[], by simp [hreplies]⟩
  aborted h := by rw [hstatus, h]

/-- A part of a transaction of E takes nothing back (00_scope.md R13). -/
theorem State.Within.evolves {s t : State} (h : s.Within t) : s.Evolves t where
  cfg := h.cfg
  map := h.map
  bound hb := by rw [h.bound, hb]
  hist := h.hist
  replies := ⟨[], by simp [h.replies]⟩
  aborted ha := by rw [h.e, ha]

theorem State.Evolves.trans {s t u : State} (h : s.Evolves t) (g : t.Evolves u) : s.Evolves u where
  cfg := g.cfg.trans h.cfg
  map := g.map.trans h.map
  bound hb := g.bound (h.bound hb)
  hist := by
    obtain ⟨evs, ht⟩ := h.hist
    obtain ⟨evs', hu⟩ := g.hist
    exact ⟨evs ++ evs', by rw [hu, ht, List.append_assoc]⟩
  replies := by
    obtain ⟨rs, ht, hab⟩ := h.replies
    obtain ⟨rs', hu, hab'⟩ := g.replies
    refine ⟨rs ++ rs', by rw [hu, ht, List.append_assoc], fun hm => ?_⟩
    rcases List.mem_append.1 hm with hm | hm
    · exact g.aborted (hab hm)
    · exact hab' hm
  aborted ha := g.aborted (h.aborted ha)

theorem State.Evolves.toNext {s t : State} (h : s.Evolves t) : s.EvolvesTo (.next t) := by
  rintro _ ⟨⟩
  exact h

theorem State.Evolves.then {s t : State} {o : Out} (h : s.Evolves t) (g : t.EvolvesTo o) : s.EvolvesTo o :=
  fun u hu => h.trans (g u hu)

theorem State.evolvesTo_self (s : State) : s.EvolvesTo (.next s) :=
  (State.Within.refl s).evolves.toNext

theorem State.evolvesTo_fault (s : State) (f : Fault) : s.EvolvesTo (.fault f) := by
  rintro _ ⟨⟩

/-! ### Updates that record no event -/

theorem State.Evolves.reschedule (s : State) (l : List Entry) (ag : Agent) :
    s.Evolves { s with sched := l, issuer := ag } := .of_eq rfl rfl rfl rfl rfl

theorem State.Evolves.setCore (s : State) (l : List Entry) (v : CoreView) :
    s.Evolves { s with sched := l, core := v } := .of_eq rfl rfl rfl rfl rfl

theorem State.Evolves.coreRetire (s : State) : s.Evolves s.coreRetire := .of_eq rfl rfl rfl rfl rfl

theorem State.Evolves.setMode (s : State) (m : DbgMode) : s.Evolves (s.setMode m) := .of_eq rfl rfl rfl rfl rfl

theorem State.Evolves.setBps (s : State) (l : List Word) : s.Evolves (s.setBps l) := .of_eq rfl rfl rfl rfl rfl

theorem State.Evolves.holdE (s : State) (h : Held) : s.Evolves (s.holdE h) := .of_eq rfl rfl rfl rfl rfl

theorem State.Evolves.freeE (s : State) : s.Evolves s.freeE := .of_eq rfl rfl rfl rfl rfl

theorem State.Evolves.holdHost (s : State) (ag : Agent) (op : HostOp) : s.Evolves (s.holdHost ag op) :=
  .of_eq rfl rfl rfl rfl rfl

theorem State.Evolves.freeHost (s : State) (ag : Agent) : s.Evolves (s.freeHost ag) := .of_eq rfl rfl rfl rfl rfl

/-! ### Endings -/

/-- A transaction that is done is recorded at the end (00_scope.md R13; log 6). -/
theorem State.Evolves.replyDone (s : State) (ag : Agent) (r : Result) : s.Evolves (s.reply ag (.done r)) where
  cfg := rfl
  map := rfl
  bound := id
  hist := ⟨[], by simp⟩
  replies := ⟨_, rfl, by simp⟩
  aborted := id

/-- An abort of E is recorded at the end and leaves E Aborted (41_bus.md R240, 10_state.md R55). -/
theorem State.Evolves.abortE (s : State) : s.Evolves s.abortE where
  cfg := rfl
  map := rfl
  bound := id
  hist := ⟨[], by simp⟩
  replies := ⟨_, rfl, fun _ => rfl⟩
  aborted _ := rfl

/-- A stretch of E takes nothing back if what follows a part that is done does not: the part itself does not, and a hold or an abort
does not (00_scope.md R13, 41_bus.md R240). -/
theorem Res.Within.outcome_evolves {α : Type} {s : State} {r : Res α} (fr : Frame) {k : α → State → Out} (h : r.Within s)
    (hk : ∀ (a : α) (t : State), t.EvolvesTo (k a t)) : s.EvolvesTo (r.outcome fr k) := by
  cases r with
  | done a t => exact (State.Within.evolves h).then (hk a t)
  | hold p t => exact ((State.Within.evolves h).trans (.holdE t (.queue p fr))).toNext
  | abort t => exact ((State.Within.evolves h).trans (.abortE t)).toNext
  | fault f => exact s.evolvesTo_fault f

theorem Res.Within.endE_evolves {s : State} {r : Res Result} (h : r.Within s) : s.EvolvesTo r.endE :=
  h.outcome_evolves .bare fun x t => (State.Evolves.replyDone t .e x).toNext

/-! ### The debugger's step -/

/-- The end of a DSTEP records the EXEC and the DSTEP (45_debugger.md R434). -/
theorem State.Evolves.dstepEnd (s : State) : s.Evolves s.dstepEnd :=
  (State.Evolves.replyDone s .e .unit).trans ((State.Evolves.setMode _ (modeAfter s.dbg.mode)).trans (.replyDone _ .e .unit))

theorem coreExecOutcome_evolves {s : State} {r : Res Unit} (h : r.Within s) : s.EvolvesTo (coreExecOutcome r) :=
  h.outcome_evolves .coreExec fun _ t => (State.Evolves.dstepEnd t).toNext

/-- The core's instruction takes nothing back, from any of its bus transactions on (60_exceptions.md R546). -/
theorem coreTxns_evolves (l : List BusTxn) (s : State) : s.EvolvesTo (coreTxns l s) := by
  induction l generalizing s with
  | nil => exact (State.Evolves.coreRetire s).then (coreExecOutcome_evolves (execAll_within s.coreRetire))
  | cons t ts ih =>
    exact (busTxn_within t s).outcome_evolves (.coreTxns ts) fun x u => (State.Evolves.replyDone u .e x).then (ih (u.doneE x))

theorem dstepFromWait_evolves (s : State) : s.EvolvesTo (dstepFromWait s) := by
  unfold dstepFromWait
  split
  · exact (State.Evolves.holdE s .debugger).toNext
  · split
    · exact ((State.Evolves.setMode s .stopped).trans (.replyDone _ .e .unit)).toNext
    · exact coreTxns_evolves _ s

/-! ### Hosts -/

theorem State.Within.afterHostPush (s : State) (id : QId) : s.Within (s.afterHostPush id) := by
  cases id with
  | shiRx => exact .countRx s
  | _ => exact .refl s

/-- A host's transaction that changes its queue and is done. -/
theorem State.Evolves.hostDone {s t : State} (h : s.Within t) (ag : Agent) (r : Result) :
    s.EvolvesTo (.next (t.reply ag (.done r))) :=
  (h.evolves.trans (.replyDone t ag r)).toNext

/-- A host's transaction takes nothing back (47_host_streams.md R500, R506). -/
theorem hostRun_evolves (ag : Agent) (op : HostOp) (s : State) : s.EvolvesTo (hostRun ag op s) := by
  have hold : s.EvolvesTo (.next (s.holdHost ag op)) := (State.Evolves.holdHost s ag op).toNext
  have shut : s.EvolvesTo (.next (s.reply ag (.done .endOfStream))) := .hostDone (.refl s) ag .endOfStream
  cases op with
  | push id v =>
    rcases hostRun_push_cases ag id v s with ⟨ho, hl, h⟩ | ⟨-, -, h⟩ | ⟨-, h⟩ <;> rw [h]
    · exact .hostDone ((State.Within.setQueue s id _ ho fun _ => by simpa using hl).trans (.afterHostPush _ id)) ag .unit
    · exact hold
    · exact shut
  | pop id =>
    rcases hostRun_pop_cases ag id s with ⟨w, ws, hq, h⟩ | ⟨-, h⟩ | ⟨-, h⟩ <;> rw [h]
    · have room : (s.queue id).items.length ≤ Config.qcap → ws.length ≤ Config.qcap := fun hl =>
        (Nat.le_succ _).trans (by simpa [hq] using hl)
      exact .hostDone (.setQueue s id _ (by rw [hq]) room) ag (.word w)
    · exact hold
    · exact shut

/-! ### TERMINATE and RESET -/

/-- A queue set to what it is. -/
theorem State.setQueue_queue_eq (s : State) (id : QId) : s.setQueue id (s.queue id) = s := by
  cases id <;> simp [State.setQueue, State.queue]

/-- Shutting a queue is within what a part of a transaction of E may do: a shut queue stays as it is (42_queue.md R274). -/
theorem State.Within.shutQueue (s : State) (id : QId) : s.Within (s.shutQueue id) := by
  cases h : (s.queue id).shut with
  | false => exact .setQueue s id _ h fun hl => hl
  | true =>
    have same : (s.queue id).shutdown = s.queue id := by rw [Queue.shutdown, ← h]
    rw [State.shutQueue, same, State.setQueue_queue_eq]
    exact .refl s

/-- A fold of updates is within what a part may do if each of them is. -/
theorem State.Within.foldl {α : Type} {f : State → α → State} (hf : ∀ (s : State) (a : α), s.Within (f s a)) (l : List α) (s : State) :
    s.Within (l.foldl f s) := by
  induction l generalizing s with
  | nil => exact .refl s
  | cons a l ih => exact (hf s a).trans (ih (f s a))

/-- A peripheral's `terminate()` shuts its queues and does no more (41_bus.md R238). -/
theorem State.Within.periphTerminate (s : State) (p : Periph) : s.Within (periphTerminate p s) := by
  cases p with
  | shi => exact (State.Within.shutQueue s .shiRx).trans (.shutQueue _ .shiTx)
  | esai =>
    exact (State.Within.foldl (fun t c => .shutQueue t (.out c)) outChannels s).trans
      (.foldl (fun t c => .shutQueue t (.inp c)) inChannels _)
  | _ => exact .refl s

theorem State.Within.terminateAll (s : State) : s.Within s.terminateAll :=
  .foldl (fun t p => .periphTerminate t p) (periphList s.cfg.order) s

/-- RESET binds the engine (41_bus.md R237). -/
theorem State.Evolves.resetAll (s : State) : s.Evolves s.resetAll := by
  rw [State.resetAll_eq]
  exact { cfg := rfl, map := rfl, bound := fun _ => rfl, hist := ⟨[], by simp⟩, replies := ⟨[], by simp⟩, aborted := id }

/-! ### Every transaction, every resumption, every step -/

theorem execBusRead_evolves (a : Area) (off : Word) (k : Kind) (s : State) : s.EvolvesTo (execBusRead a off k s) :=
  ((busRead_within a off k s).map Result.word).endE_evolves

theorem execBusWrite_evolves (a : Area) (off : Word) (v : Nat) (s : State) : s.EvolvesTo (execBusWrite a off v s) :=
  ((busWrite_within a off v s).map fun _ => Result.unit).endE_evolves

/-- A transaction that the engine must be bound for (41_bus.md R239). -/
theorem State.EvolvesTo.ifBound {s : State} {o : Out} (h : s.EvolvesTo o) :
    s.EvolvesTo (if s.bus.bound then o else .fault .unboundCore) := by
  split
  · exact h
  · exact s.evolvesTo_fault _

/-- No transaction takes anything back. -/
theorem exec_evolves (i : Instr) (s : State) : s.EvolvesTo (exec i s) := by
  cases i with
  | readPctl k | readHckr k | readHcsr k | readHsar k | readHtx k | readTx0 k | readTx1 k | readTx2 k | readTx3 k | readTx4 k
  | readTx5 k | readRx0 k | readRx1 k | readRx2 k | readRx3 k | readSaisr k | readSaicr k | readTcr k | readTccr k | readRcr k
  | readRccr k | readChidr k | readOdbc k | readEmbc k | readHrx | readBtHrx | readBacking a k off =>
    exact execBusRead_evolves _ _ _ s
  | writePctl v | writeHckr v | writeHcsr v | writeHsar v | writeHtx v | writeHrx v | writeTx0 v | writeTx1 v | writeTx2 v
  | writeTx3 v | writeTx4 v | writeTx5 v | writeRx0 v | writeRx1 v | writeRx2 v | writeRx3 v | writeSaisr v | writeSaicr v
  | writeTcr v | writeTccr v | writeRcr v | writeRccr v | writeChidr v | writeOdbc v | writeEmbc v | writeBacking a off v =>
    exact execBusWrite_evolves _ _ _ s
  | hpushShiRx v | hpushEsaiIn0 v | hpushEsaiIn1 v | hpushEsaiIn2 v | hpushEsaiIn3 v | hpopShiTx | hpopEsaiOut0 | hpopEsaiOut1
  | hpopEsaiOut2 | hpopEsaiOut3 | hpopEsaiOut4 | hpopEsaiOut5 =>
    exact hostRun_evolves s.issuer _ s
  | hpushEsaiIn4to7 _ _ | hpushEsaiIn8to15 _ _ | hpopEsaiOut6to7 _ | hpopEsaiOut8to15 _ =>
    exact (State.Evolves.replyDone s s.issuer .endOfStream).toNext
  | bkptSet _ | bkptDel _ => exact ((State.Evolves.setBps s _).trans (.replyDone _ s.issuer .unit)).toNext
  | cont n => exact ((State.Evolves.setMode s (contMode n)).trans (.replyDone _ s.issuer .unit)).toNext
  | exec => exact ((execAll_within s).map fun _ => Result.unit).endE_evolves.ifBound
  | dstep => exact (dstepFromWait_evolves s).ifBound
  | boot => exact (bootFromCount_within s).endE_evolves.ifBound
  | reset => exact ((State.Evolves.resetAll s).trans (.replyDone s.resetAll .e .unit)).toNext
  | terminate => exact ((State.Within.terminateAll s).evolves.trans (.replyDone s.terminateAll s.issuer .unit)).toNext

/-- What comes after the part that held takes nothing back (00_scope.md R13). -/
theorem frameOutcome_evolves (fr : Frame) {s : State} {r : Res Result} (h : r.Within s) :
    s.EvolvesTo (frameOutcome fr r) := by
  cases fr with
  | bare => exact h.endE_evolves
  | coreTxns rest =>
    exact h.outcome_evolves (.coreTxns rest) fun x t => (State.Evolves.replyDone t .e x).then (coreTxns_evolves rest (t.doneE x))
  | coreExec => exact coreExecOutcome_evolves (h.map fun _ => ())

theorem runHeld_evolves (h : Held) (s : State) : s.EvolvesTo (runHeld h s) := by
  cases h with
  | debugger => exact dstepFromWait_evolves s
  | queue p fr => exact frameOutcome_evolves fr (runPoint_within p s)

/-- No resumption takes anything back, whoever resumes (42_queue.md R277). -/
theorem resume_evolves (ag : Agent) (s : State) : s.EvolvesTo (resume ag s) := by
  unfold resume
  split
  · split
    · exact (State.Evolves.freeE s).then (runHeld_evolves _ s.freeE)
    · exact s.evolvesTo_self
  · split
    · exact (State.Evolves.freeHost s ag).then (hostRun_evolves ag _ (s.freeHost ag))
    · exact s.evolvesTo_self

/-! ### The heads of the schedule -/

/-- An empty schedule leaves the state as it is (log 3). -/
theorem step_nil {s : State} (hs : s.sched = []) : step s = .next s := by
  simp [step, fetch, hs]

/-- A resumption at the head of the schedule is tried (42_queue.md R277; log 3). -/
theorem step_resume {s : State} {ag : Agent} {rest : List Entry} (hs : s.sched = .resume ag :: rest) :
    step s = resume ag { s with sched := rest } := by
  simp [step, fetch, hs]

/-- A move of the core at the head of the schedule gives the engine a new view of it (log 5). -/
theorem step_core {s : State} {v : CoreView} {rest : List Entry} (hs : s.sched = .core v :: rest) :
    step s = .next { s with sched := rest, core := v } := by
  simp [step, fetch, hs]

/-- A transaction of an agent that is not ready is passed over (00_scope.md R13, 10_state.md R55; log 3). -/
theorem step_issue_passedOver {s : State} {ag : Agent} {code : Code} {operand : Nat} {rest : List Entry} {i : Instr}
    (hs : s.sched = .issue ag code operand :: rest) (hd : decode code operand = .ok i)
    (ha : agentMayIssue ag (fieldsOf code).op = true) (hr : s.ready ag = false) :
    step s = .next { s with sched := rest } := by
  simp [step, fetch, hs, fetchIssue, hd, ha, State.ready_sched, hr]

/-- A transaction at the head of the schedule is refused, passed over or run (00_scope.md R12; 60_exceptions.md R534, R544). -/
theorem step_issue_cases {s : State} {ag : Agent} {code : Code} {operand : Nat} {rest : List Entry}
    (hs : s.sched = .issue ag code operand :: rest) :
    (∃ r, step s = .refused r) ∨ step s = .next { s with sched := rest } ∨
      ∃ i, step s = exec i { s with sched := rest, issuer := ag } := by
  cases hd : decode code operand with
  | error r => exact .inl ⟨.encoding r, by simp [step, fetch, hs, fetchIssue, hd]⟩
  | ok i =>
    cases ha : agentMayIssue ag (fieldsOf code).op with
    | false => exact .inl ⟨.wrongAgent, by simp [step, fetch, hs, fetchIssue, hd, ha]⟩
    | true =>
      cases hr : s.ready ag with
      | false => exact .inr (.inl (step_issue_passedOver hs hd ha hr))
      | true => exact .inr (.inr ⟨i, step_issue hs hd ha hr⟩)

/-- No step takes anything back (10_state.md R30, R55, R57). -/
theorem step_evolves (s : State) : s.EvolvesTo (step s) := by
  cases hs : s.sched with
  | nil =>
    rw [step_nil hs]
    exact s.evolvesTo_self
  | cons entry rest =>
    cases entry with
    | issue ag code operand =>
      rcases step_issue_cases hs with ⟨r, h⟩ | h | ⟨i, h⟩ <;> rw [h]
      · rintro _ ⟨⟩
      · exact (State.Evolves.reschedule s rest s.issuer).toNext
      · exact (State.Evolves.reschedule s rest ag).then (exec_evolves i _)
    | resume ag =>
      rw [step_resume hs]
      exact (State.Evolves.reschedule s rest s.issuer).then (resume_evolves ag _)
    | core v =>
      rw [step_core hs]
      exact (State.Evolves.setCore s rest v).toNext

/-- Settles O59: the parts of `State.Evolves` that speak of the parameters, the bus and the records. -/
theorem stepOnlyAppendsRecords : Obligations.StepOnlyAppendsRecords := by
  intro s t h
  have hst := step_evolves s t h
  obtain ⟨rs, hrs, -⟩ := hst.replies
  exact ⟨hst.cfg, hst.map, hst.bound, hst.hist, rs, hrs⟩

/-! ### An Aborted E -/

/-- An Aborted E is not ready to issue (10_state.md R55). -/
theorem State.ready_of_aborted {s : State} (h : s.e.status = .aborted) : s.ready .e = false := by
  simp [State.ready, h]

/-- An Aborted E does not go on, held or not (10_state.md R55). -/
theorem resume_of_aborted {s : State} (h : s.e.status = .aborted) : resume .e s = .next s := by
  simp [resume, h]

/-- Settles O6: an abort recorded by a step is among the endings `State.Evolves` speaks of, and an entry that gives an Aborted E a turn
is passed over. -/
theorem abortedHasNoFurtherStep : Obligations.AbortedHasNoFurtherStep := by
  refine ⟨rfl, fun s t rs h hrs hab => ?_, fun s t ha h => (step_evolves s t h).aborted ha,
    fun s code operand rest i ha hs hd hmay => step_issue_passedOver hs hd hmay (State.ready_of_aborted ha),
    fun s rest ha hs => (step_resume hs).trans (resume_of_aborted (s := { s with sched := rest }) ha)⟩
  obtain ⟨rs', hrs', himp⟩ := (step_evolves s t h).replies
  have same : rs = rs' := List.append_cancel_left (hrs.symm.trans hrs')
  exact himp (same ▸ hab)

end Sys2Proof.Machine

/-! PROOFS. The memory of the machine (20_memory.md): what an access to an unmapped offset does, and that no agent but E reaches a
register or the memory. -/

namespace Sys2Proof.Machine

open Sys2Proof.Claims

/-! ### `MemRead` and `MemWrite`, in range and out of it -/

/-- `MemRead` in range gives the backing word (20_memory.md R104). -/
theorem State.memReadWord_inRange {s : State} {off : Word} (a : Area) (h : off.toNat < s.cfg.backingWords) :
    s.memReadWord a off = s.backing a off := by
  simp [State.memReadWord, State.inRange, h]

/-- `MemRead` out of range gives 0 (20_memory.md R104). -/
theorem State.memReadWord_outOfRange {s : State} {off : Word} (a : Area) (h : s.cfg.backingWords ≤ off.toNat) :
    s.memReadWord a off = 0 := by
  simp [State.memReadWord, State.inRange, Nat.not_lt.2 h]

/-- `MemRead` in range logs the word it gives (20_memory.md R104). -/
theorem State.memReadState_inRange {s : State} {off : Word} (a : Area) (h : off.toNat < s.cfg.backingWords) :
    s.memReadState a off = s.log (.memRead a off (s.backing a off)) := by
  simp [State.memReadState, State.inRange, h]

/-- `MemRead` out of range logs that it is (20_memory.md R104). -/
theorem State.memReadState_outOfRange {s : State} {off : Word} (a : Area) (h : s.cfg.backingWords ≤ off.toNat) :
    s.memReadState a off = s.log (.outOfBounds a off) := by
  simp [State.memReadState, State.inRange, Nat.not_lt.2 h]

/-- `MemWrite` in range stores and logs the word (20_memory.md R105). -/
theorem State.memWrite_inRange {s : State} {off : Word} (a : Area) (v : Word) (h : off.toNat < s.cfg.backingWords) :
    s.memWrite a off v = (s.setBacking a off v).log (.memWrite a off v) := by
  simp [State.memWrite, State.inRange, h]

/-- `MemWrite` out of range only logs (20_memory.md R105). -/
theorem State.memWrite_outOfRange {s : State} {off : Word} (a : Area) (v : Word) (h : s.cfg.backingWords ≤ off.toNat) :
    s.memWrite a off v = s.log (.outOfBounds a off) := by
  simp [State.memWrite, State.inRange, Nat.not_lt.2 h]

/-- An event leaves the backing memory (10_state.md R57). -/
@[simp] theorem State.log_backing (s : State) (d : Diag) (a : Area) (off : Word) : (s.log d).backing a off = s.backing a off := by
  cases a <;> rfl

/-- A word written in range is read at its pair, and at every other pair what was there before (20_memory.md R104, R105). -/
theorem State.memWrite_backing {s : State} {off : Word} (a : Area) (v : Word) (h : off.toNat < s.cfg.backingWords) (a' : Area)
    (off' : Word) : (s.memWrite a off v).backing a' off' = if a' = a ∧ off' = off then v else s.backing a' off' := by
  rw [State.memWrite_inRange a v h, State.log_backing, State.setBacking_backing]

/-- A word written in range is recorded in the history (20_memory.md R105). -/
theorem State.memWrite_hist {s : State} {off : Word} (a : Area) (v : Word) (h : off.toNat < s.cfg.backingWords) :
    (s.memWrite a off v).hist = s.hist ++ [.log (.memWrite a off v)] := by
  rw [State.memWrite_inRange a v h]
  cases a <;> rfl

/-! ### Accesses to an unmapped offset -/

/-- A read of an unmapped offset is `MemRead`, and it is done at once (41_bus.md R233). -/
theorem exec_readBacking {s : State} {a : Area} {off : Word} (hm : s.Mapped) (hfree : regAt a off = none) (k : Kind) :
    exec (.readBacking a k off) s = doneWord (s.memReadWord a off) (s.memReadState a off) := by
  show ((busRead a off k s).map Result.word).endE = _
  rw [busRead_unmapped hm hfree]
  rfl

/-- A write of an unmapped offset is `MemWrite` of the truncated word, and it is done at once (41_bus.md R234, R235). -/
theorem exec_writeBacking {s : State} {a : Area} {off : Word} (hm : s.Mapped) (hfree : regAt a off = none) (v : Nat) :
    exec (.writeBacking a off v) s = doneUnit (s.memWrite a off (BitVec.ofNat 24 v)) := by
  show ((busWrite a off v s).map fun _ => Result.unit).endE = _
  rw [busWrite_unmapped hm hfree]
  rfl

/-- Settles O22: the read is `MemRead`, whose word and state the range decides. -/
theorem backingRead : Obligations.BackingRead := by
  intro s a k off hm hfree
  rw [exec_readBacking hm hfree]
  constructor
  · intro hin
    rw [State.memReadWord_inRange a hin, State.memReadState_inRange a hin]
    rfl
  · intro hout
    rw [State.memReadWord_outOfRange a hout, State.memReadState_outOfRange a hout]
    rfl

/-- Settles O23: the write is `MemWrite`, which is a part of a transaction of E (`State.Within`) and touches no peripheral. -/
theorem backingWrite : Obligations.BackingWrite := by
  intro s a off v hm hfree
  rw [exec_writeBacking hm hfree]
  constructor
  · intro hin
    have frame := State.Within.memWrite s a off (BitVec.ofNat 24 v)
    exact ⟨_, rfl, State.memWrite_backing a _ hin, State.memWrite_hist a _ hin, frame.map, frame.bound, frame.cfg,
      State.memWrite_shi .., State.memWrite_esai .., State.memWrite_embc .., frame.dbg, frame.e, frame.hosts, frame.replies,
      State.memWrite_core .., frame.sched, frame.issuer⟩
  · intro hout
    rw [State.memWrite_outOfRange a _ hout]
    rfl

/-! ### What the agents other than E leave as it is -/

/-- The state `t` differs from `s` in no register, flag or word of the peripherals, in no memory, map, history or parameter, and not in
E: of the SHI only the queues and the pending-RX count may differ, of the ESAI only the queues (20_memory.md R113). -/
structure State.SameRegisters (s t : State) : Prop where
  bus : t.bus = s.bus
  embc : t.embc = s.embc
  e : t.e = s.e
  hist : t.hist = s.hist
  cfg : t.cfg = s.cfg
  shi : t.shi = { s.shi with rxq := t.shi.rxq, txq := t.shi.txq, pendRx := t.shi.pendRx }
  esai : t.esai = { s.esai with outq := t.esai.outq, inq := t.esai.inq }

/-- The next state of an outcome, if it has one, has the registers of `s`. -/
def State.SameRegistersTo (s : State) (o : Out) : Prop := ∀ t, o = .next t → s.SameRegisters t

theorem State.SameRegisters.refl (s : State) : s.SameRegisters s := ⟨rfl, rfl, rfl, rfl, rfl, rfl, rfl⟩

theorem State.SameRegisters.trans {s t u : State} (h : s.SameRegisters t) (g : t.SameRegisters u) : s.SameRegisters u where
  bus := g.bus.trans h.bus
  embc := g.embc.trans h.embc
  e := g.e.trans h.e
  hist := g.hist.trans h.hist
  cfg := g.cfg.trans h.cfg
  shi := g.shi.trans (by rw [h.shi])
  esai := g.esai.trans (by rw [h.esai])

theorem State.SameRegisters.toNext {s t : State} (h : s.SameRegisters t) : s.SameRegistersTo (.next t) := by
  rintro _ ⟨⟩
  exact h

theorem State.SameRegisters.then {s t : State} {o : Out} (h : s.SameRegisters t) (g : t.SameRegistersTo o) :
    s.SameRegistersTo o :=
  fun u hu => h.trans (g u hu)

/-! ### The updates that keep the registers -/

theorem State.SameRegisters.reschedule (s : State) (l : List Entry) (ag : Agent) :
    s.SameRegisters { s with sched := l, issuer := ag } := ⟨rfl, rfl, rfl, rfl, rfl, rfl, rfl⟩

theorem State.SameRegisters.setCore (s : State) (l : List Entry) (v : CoreView) :
    s.SameRegisters { s with sched := l, core := v } := ⟨rfl, rfl, rfl, rfl, rfl, rfl, rfl⟩

theorem State.SameRegisters.reply (s : State) (ag : Agent) (o : Ending) : s.SameRegisters (s.reply ag o) :=
  ⟨rfl, rfl, rfl, rfl, rfl, rfl, rfl⟩

theorem State.SameRegisters.holdHost (s : State) (ag : Agent) (op : HostOp) : s.SameRegisters (s.holdHost ag op) :=
  ⟨rfl, rfl, rfl, rfl, rfl, rfl, rfl⟩

theorem State.SameRegisters.freeHost (s : State) (ag : Agent) : s.SameRegisters (s.freeHost ag) :=
  ⟨rfl, rfl, rfl, rfl, rfl, rfl, rfl⟩

theorem State.SameRegisters.setMode (s : State) (m : DbgMode) : s.SameRegisters (s.setMode m) :=
  ⟨rfl, rfl, rfl, rfl, rfl, rfl, rfl⟩

theorem State.SameRegisters.setBps (s : State) (l : List Word) : s.SameRegisters (s.setBps l) :=
  ⟨rfl, rfl, rfl, rfl, rfl, rfl, rfl⟩

/-- Whichever of the twelve queues is set (42_queue.md R280). -/
theorem State.SameRegisters.setQueue (s : State) (id : QId) (q : Queue) : s.SameRegisters (s.setQueue id q) := by
  cases id <;> exact ⟨rfl, rfl, rfl, rfl, rfl, rfl, rfl⟩

theorem State.SameRegisters.shutQueue (s : State) (id : QId) : s.SameRegisters (s.shutQueue id) := .setQueue s id _

/-- The count that a host's push to rxq may add to is not a register (44_shi.md R386). -/
theorem State.SameRegisters.afterHostPush (s : State) (id : QId) : s.SameRegisters (s.afterHostPush id) := by
  cases id with
  | shiRx =>
    show s.SameRegisters s.countRx
    rw [State.countRx_eq]
    exact ⟨rfl, rfl, rfl, rfl, rfl, rfl, rfl⟩
  | _ => exact .refl s

/-- A fold of updates keeps the registers if each of them does. -/
theorem State.SameRegisters.foldl {α : Type} {f : State → α → State} (hf : ∀ (s : State) (a : α), s.SameRegisters (f s a))
    (l : List α) (s : State) : s.SameRegisters (l.foldl f s) := by
  induction l generalizing s with
  | nil => exact .refl s
  | cons a l ih => exact (hf s a).trans (ih (f s a))

/-- A peripheral's `terminate()` shuts its queues and does no more (41_bus.md R238). -/
theorem State.SameRegisters.periphTerminate (s : State) (p : Periph) : s.SameRegisters (periphTerminate p s) := by
  cases p with
  | shi => exact (State.SameRegisters.shutQueue s .shiRx).trans (.shutQueue _ .shiTx)
  | esai =>
    exact (State.SameRegisters.foldl (fun t c => .shutQueue t (.out c)) outChannels s).trans
      (.foldl (fun t c => .shutQueue t (.inp c)) inChannels _)
  | _ => exact .refl s

theorem State.SameRegisters.terminateAll (s : State) : s.SameRegisters s.terminateAll :=
  .foldl (fun t p => .periphTerminate t p) (periphList s.cfg.order) s

/-! ### The transactions of the agents other than E -/

/-- A host's transaction moves a word at one queue, waits or ends (47_host_streams.md R500, R506). -/
theorem hostRun_sameRegisters (ag : Agent) (op : HostOp) (s : State) : s.SameRegistersTo (hostRun ag op s) := by
  have hold : s.SameRegistersTo (.next (s.holdHost ag op)) := (State.SameRegisters.holdHost s ag op).toNext
  have shut : s.SameRegistersTo (.next (s.reply ag (.done .endOfStream))) := (State.SameRegisters.reply s ag _).toNext
  cases op with
  | push id v =>
    rcases hostRun_push_cases ag id v s with ⟨-, -, h⟩ | ⟨-, -, h⟩ | ⟨-, h⟩ <;> rw [h]
    · exact (((State.SameRegisters.setQueue s id _).trans (.afterHostPush _ id)).trans (.reply _ ag _)).toNext
    · exact hold
    · exact shut
  | pop id =>
    rcases hostRun_pop_cases ag id s with ⟨w, ws, -, h⟩ | ⟨-, h⟩ | ⟨-, h⟩ <;> rw [h]
    · exact ((State.SameRegisters.setQueue s id _).trans (.reply _ ag _)).toNext
    · exact hold
    · exact shut

/-- An access to a channel that does not exist only ends (47_host_streams.md R505). -/
theorem hostNoChannel_sameRegisters (s : State) : s.SameRegistersTo (hostNoChannel s) :=
  (State.SameRegisters.reply s s.issuer (.done .endOfStream)).toNext

/-- Whatever row a push code decodes to, it is a push to a queue or an access to no channel (30_encoding.md R149). -/
theorem exec_decodePush {arg : Word} {v : Nat} {i : Instr} (h : decodePush arg v = .ok i) :
    (∃ id, exec i = hostPush id v) ∨ exec i = hostNoChannel := by
  unfold decodePush at h
  split_ifs at h <;> cases h
  exacts [.inl ⟨.shiRx, rfl⟩, .inl ⟨.inp 0, rfl⟩, .inl ⟨.inp 1, rfl⟩, .inl ⟨.inp 2, rfl⟩, .inl ⟨.inp 3, rfl⟩, .inr rfl, .inr rfl]

/-- Whatever row a pop code decodes to, it is a pop from a queue or an access to no channel (30_encoding.md R149). -/
theorem exec_decodePop {arg : Word} {i : Instr} (h : decodePop arg = .ok i) :
    (∃ id, exec i = hostPop id) ∨ exec i = hostNoChannel := by
  unfold decodePop at h
  split_ifs at h <;> cases h
  exacts [.inl ⟨.shiTx, rfl⟩, .inl ⟨.out 0, rfl⟩, .inl ⟨.out 1, rfl⟩, .inl ⟨.out 2, rfl⟩, .inl ⟨.out 3, rfl⟩, .inl ⟨.out 4, rfl⟩,
    .inl ⟨.out 5, rfl⟩, .inr rfl, .inr rfl]

/-- A code that decodes is dispatched on its operation (30_encoding.md R150). -/
theorem decodeOp_of_decode {code : Code} {operand : Nat} {i : Instr} (h : decode code operand = .ok i) :
    decodeOp (fieldsOf code) operand = .ok i := by
  unfold decode at h
  split at h
  · cases h
  · exact h

/-- An agent other than E issues TERMINATE, HOST_PUSH, HOST_POP or one of the debugger's operations but DBG_EXEC
(30_encoding.md R142, 60_exceptions.md R544). -/
theorem op_of_agentMayIssue {ag : Agent} {op : BitVec 4} (hag : ag ≠ .e) (h : agentMayIssue ag op = true) :
    op = 0x4#4 ∨ op = 0x5#4 ∨ op = 0x6#4 ∨ op = 0x7#4 ∨ op = 0x8#4 ∨ op = 0x9#4 := by
  cases ag with
  | e => exact absurd rfl hag
  | h _ | c _ | s =>
    simp only [agentMayIssue, Bool.or_eq_true, decide_eq_true_eq] at h
    tauto

/-- No transaction that an agent other than E may issue touches a register (60_exceptions.md R544, 20_memory.md R113). -/
theorem exec_sameRegisters {ag : Agent} {code : Code} {operand : Nat} {i : Instr} (hag : ag ≠ .e)
    (hd : decode code operand = .ok i) (hmay : agentMayIssue ag (fieldsOf code).op = true) (s : State) :
    s.SameRegistersTo (exec i s) := by
  have hop := decodeOp_of_decode hd
  rcases op_of_agentMayIssue hag hmay with h | h | h | h | h | h <;>
    simp only [decodeOp, h, BitVec.reduceEq, reduceIte, Except.ok.injEq] at hop
  · subst hop
    exact ((State.SameRegisters.terminateAll s).trans (.reply _ s.issuer (.done .unit))).toNext
  · rcases exec_decodePush hop with ⟨id, hx⟩ | hx <;> rw [hx]
    · exact hostRun_sameRegisters s.issuer _ s
    · exact hostNoChannel_sameRegisters s
  · rcases exec_decodePop hop with ⟨id, hx⟩ | hx <;> rw [hx]
    · exact hostRun_sameRegisters s.issuer _ s
    · exact hostNoChannel_sameRegisters s
  · subst hop
    exact ((State.SameRegisters.setBps s _).trans (.reply _ s.issuer (.done .unit))).toNext
  · subst hop
    exact ((State.SameRegisters.setBps s _).trans (.reply _ s.issuer (.done .unit))).toNext
  · subst hop
    exact ((State.SameRegisters.setMode s _).trans (.reply _ s.issuer (.done .unit))).toNext

/-! ### The steps of the agents other than E -/

/-- A transaction at the head of the schedule that is not refused is passed over, or it decodes, is the agent's to issue, and is run
(00_scope.md R12; 60_exceptions.md R534, R544). -/
theorem step_issue_next {s t : State} {ag : Agent} {code : Code} {operand : Nat} {rest : List Entry}
    (hs : s.sched = .issue ag code operand :: rest) (h : step s = .next t) :
    t = { s with sched := rest } ∨
      ∃ i, decode code operand = .ok i ∧ agentMayIssue ag (fieldsOf code).op = true ∧
        exec i { s with sched := rest, issuer := ag } = .next t := by
  cases hd : decode code operand with
  | error r => simp [step, fetch, hs, fetchIssue, hd] at h
  | ok i =>
    cases ha : agentMayIssue ag (fieldsOf code).op with
    | false => simp [step, fetch, hs, fetchIssue, hd, ha] at h
    | true =>
      cases hr : s.ready ag with
      | false =>
        rw [step_issue_passedOver hs hd ha hr] at h
        cases h
        exact .inl rfl
      | true => exact .inr ⟨i, rfl, rfl, (step_issue hs hd ha hr).symm.trans h⟩

/-- An agent other than E that goes on with its held transaction touches no register (42_queue.md R277). -/
theorem resume_sameRegisters {ag : Agent} (hag : ag ≠ .e) (s : State) : s.SameRegistersTo (resume ag s) := by
  unfold resume
  split
  · exact absurd rfl hag
  · split
    · exact (State.SameRegisters.freeHost s ag).then (hostRun_sameRegisters ag _ _)
    · exact (State.SameRegisters.refl s).toNext

/-- Settles O60: an agent other than E runs one of its own transactions or goes on with a host's, and none of these changes more of the
engine than queues, the pending-RX count and the debugger. -/
theorem otherAgentsTouchNoRegister : Obligations.OtherAgentsTouchNoRegister := by
  intro s t rest ag code operand v hag hsched hstep
  have same : s.SameRegisters t := by
    rcases hsched with hs | hs | hs
    · rcases step_issue_next hs hstep with rfl | ⟨i, hd, hmay, hx⟩
      · exact .reschedule s rest s.issuer
      · exact (State.SameRegisters.reschedule s rest ag).then (exec_sameRegisters hag hd hmay _) t hx
    · rw [step_resume hs] at hstep
      exact (State.SameRegisters.reschedule s rest s.issuer).then (resume_sameRegisters hag _) t hstep
    · rw [step_core hs] at hstep
      exact (State.SameRegisters.setCore s rest v).toNext t hstep
  exact ⟨same.bus, same.embc, same.e, same.hist, same.cfg, same.shi, same.esai⟩

end Sys2Proof.Machine

/-! PROOFS. The encoding of transactions (30_encoding.md): the decoder and the encoder undo each other, and a step refuses exactly the
codes that a clause of R160 holds of. -/

namespace Sys2Proof

open Sys2Proof.Machine Sys2Proof.Claims

/-! ### From a well-formed transaction to its code and back -/

open Laws in
/-- Settles O1: row by row of the opcode table. -/
theorem decodeOfEncode : Obligations.DecodeOfEncode
  | .readPctl k => Encoded.readPctl k
  | .readHckr k => Encoded.readHckr k
  | .readHcsr k => Encoded.readHcsr k
  | .readHsar k => Encoded.readHsar k
  | .readHtx k => Encoded.readHtx k
  | .readTx0 k => Encoded.readTx0 k
  | .readTx1 k => Encoded.readTx1 k
  | .readTx2 k => Encoded.readTx2 k
  | .readTx3 k => Encoded.readTx3 k
  | .readTx4 k => Encoded.readTx4 k
  | .readTx5 k => Encoded.readTx5 k
  | .readRx0 k => Encoded.readRx0 k
  | .readRx1 k => Encoded.readRx1 k
  | .readRx2 k => Encoded.readRx2 k
  | .readRx3 k => Encoded.readRx3 k
  | .readSaisr k => Encoded.readSaisr k
  | .readSaicr k => Encoded.readSaicr k
  | .readTcr k => Encoded.readTcr k
  | .readTccr k => Encoded.readTccr k
  | .readRcr k => Encoded.readRcr k
  | .readRccr k => Encoded.readRccr k
  | .readChidr k => Encoded.readChidr k
  | .readOdbc k => Encoded.readOdbc k
  | .readEmbc k => Encoded.readEmbc k
  | .readHrx => Encoded.readHrx
  | .readBtHrx => Encoded.readBtHrx
  | .writePctl v => Encoded.writePctl v
  | .writeHckr v => Encoded.writeHckr v
  | .writeHcsr v => Encoded.writeHcsr v
  | .writeHsar v => Encoded.writeHsar v
  | .writeHtx v => Encoded.writeHtx v
  | .writeHrx v => Encoded.writeHrx v
  | .writeTx0 v => Encoded.writeTx0 v
  | .writeTx1 v => Encoded.writeTx1 v
  | .writeTx2 v => Encoded.writeTx2 v
  | .writeTx3 v => Encoded.writeTx3 v
  | .writeTx4 v => Encoded.writeTx4 v
  | .writeTx5 v => Encoded.writeTx5 v
  | .writeRx0 v => Encoded.writeRx0 v
  | .writeRx1 v => Encoded.writeRx1 v
  | .writeRx2 v => Encoded.writeRx2 v
  | .writeRx3 v => Encoded.writeRx3 v
  | .writeSaisr v => Encoded.writeSaisr v
  | .writeSaicr v => Encoded.writeSaicr v
  | .writeTcr v => Encoded.writeTcr v
  | .writeTccr v => Encoded.writeTccr v
  | .writeRcr v => Encoded.writeRcr v
  | .writeRccr v => Encoded.writeRccr v
  | .writeChidr v => Encoded.writeChidr v
  | .writeOdbc v => Encoded.writeOdbc v
  | .writeEmbc v => Encoded.writeEmbc v
  | .exec => Encoded.exec
  | .reset => Encoded.reset
  | .terminate => Encoded.terminate
  | .hpushShiRx v => Encoded.hpushShiRx v
  | .hpushEsaiIn0 v => Encoded.hpushEsaiIn0 v
  | .hpushEsaiIn1 v => Encoded.hpushEsaiIn1 v
  | .hpushEsaiIn2 v => Encoded.hpushEsaiIn2 v
  | .hpushEsaiIn3 v => Encoded.hpushEsaiIn3 v
  | .hpushEsaiIn4to7 c v => Encoded.hpushEsaiIn4to7 c v
  | .hpushEsaiIn8to15 c v => Encoded.hpushEsaiIn8to15 c v
  | .hpopShiTx => Encoded.hpopShiTx
  | .hpopEsaiOut0 => Encoded.hpopEsaiOut0
  | .hpopEsaiOut1 => Encoded.hpopEsaiOut1
  | .hpopEsaiOut2 => Encoded.hpopEsaiOut2
  | .hpopEsaiOut3 => Encoded.hpopEsaiOut3
  | .hpopEsaiOut4 => Encoded.hpopEsaiOut4
  | .hpopEsaiOut5 => Encoded.hpopEsaiOut5
  | .hpopEsaiOut6to7 c => Encoded.hpopEsaiOut6to7 c
  | .hpopEsaiOut8to15 c => Encoded.hpopEsaiOut8to15 c
  | .bkptSet addr => Encoded.bkptSet addr
  | .bkptDel addr => Encoded.bkptDel addr
  | .cont n => Encoded.cont n
  | .dstep => Encoded.dstep
  | .boot => Encoded.boot
  | .readBacking a k off => Encoded.readBacking a k off
  | .writeBacking a off v => Encoded.writeBacking a off v

/-- Settles O4: each word is the encoding of the transaction it stands for. -/
theorem sampleWordsDecode : Obligations.SampleWordsDecode :=
  ⟨decodeOfEncode .readHrx rfl, decodeOfEncode .readBtHrx rfl, decodeOfEncode (.readSaisr .bitTest) rfl,
    decodeOfEncode (.writeEmbc 0x00ABCD) rfl, decodeOfEncode (.readBacking .y .ordinary 0x94#24) rfl,
    decodeOfEncode (.writeTx5 7) rfl, decodeOfEncode .exec rfl, decodeOfEncode (.hpushEsaiIn3 9) rfl,
    decodeOfEncode (.hpopEsaiOut8to15 15) rfl, decodeOfEncode (.bkptSet 0x123456#24) rfl, decodeOfEncode (.cont 5) rfl,
    decodeOfEncode .boot rfl⟩

/-! ### The checks of the decoder -/

/-- The fields and the operand pass the checks of 30_encoding.md R160 (a)-(e) and (g). -/
structure Fields.Admitted (f : Fields) (operand : Nat) : Prop where
  op : f.op.toNat < 12
  rsv : f.rsv = 0#2
  area : f.area = 1#1 → f.op = 0x0#4 ∨ f.op = 0x1#4
  kind : f.kind = 1#1 → f.op = 0x0#4
  arg : opHasNoArg f.op = true → f.arg = 0#24
  operand : opHasOperand f.op = false → operand = 0

/-- The decoder's checks find nothing exactly in admitted fields (30_encoding.md R160 (a)-(e), (g)). -/
theorem checkFields_eq_none_iff (f : Fields) (operand : Nat) : checkFields f operand = none ↔ f.Admitted operand := by
  constructor
  · intro h
    unfold checkFields at h
    split_ifs at h with hop hrsv harea hkind harg hoperand
    exact ⟨Nat.not_le.1 hop, not_not.1 hrsv, by tauto, by tauto, by tauto, by tauto⟩
  · rintro ⟨hop, hrsv, harea, hkind, harg, hoperand⟩
    unfold checkFields
    rw [if_neg (Nat.not_le.2 hop), if_neg (by tauto), if_neg (by tauto), if_neg (by tauto), if_neg (by tauto), if_neg (by tauto)]

/-- A code that decodes has admitted fields. -/
theorem admitted_of_decode {code : Code} {operand : Nat} {i : Instr} (h : decode code operand = .ok i) :
    (fieldsOf code).Admitted operand := by
  rw [← checkFields_eq_none_iff]
  unfold decode at h
  split at h
  · cases h
  · assumption

/-! ### From an admitted code to its transaction and back -/

/-- No AREA bit is lost (30_encoding.md R143). -/
theorem areaBitOf_areaOfBit (b : BitVec 1) : areaBitOf (areaOfBit b) = b := by
  revert b; decide

/-- No KIND bit is lost (30_encoding.md R144). -/
theorem kindBitOf_kindOfBit (b : BitVec 1) : kindBitOf (kindOfBit b) = b := by
  revert b; decide

/-- A code with RSV 0 is a bus code of its fields (30_encoding.md R141, R143, R144). -/
theorem busCode_fields {f : Fields} (hrsv : f.rsv = 0#2) :
    busCode f.op (areaOfBit f.area) (kindOfBit f.kind) f.arg = codeOf f := by
  rw [busCode, areaBitOf_areaOfBit, kindBitOf_kindOfBit, ← hrsv]

/-- The code of a write is made of its AREA and its ARG (30_encoding.md R160 (b), (d)). -/
theorem Fields.Admitted.busCode_write {f : Fields} {operand : Nat} (hf : f.Admitted operand) (hop : f.op = 0x1#4) :
    busCode 0x1#4 (areaOfBit f.area) .ordinary f.arg = codeOf f := by
  have hkind : kindOfBit f.kind = .ordinary := if_neg fun hk => by simp [hf.kind hk] at hop
  rw [← hop, ← hkind]
  exact busCode_fields hf.rsv

/-- The code of an operation that is no bus access is made of its OP and its ARG (30_encoding.md R160 (b)-(d)). -/
theorem Fields.Admitted.opCode_eq {f : Fields} {operand : Nat} {op : BitVec 4} (hf : f.Admitted operand) (hop : f.op = op)
    (hread : op ≠ 0x0#4) (hwrite : op ≠ 0x1#4) : opCode op f.arg = codeOf f := by
  subst hop
  have harea : areaOfBit f.area = .x := if_neg fun ha => (hf.area ha).elim hread hwrite
  have hkind : kindOfBit f.kind = .ordinary := if_neg fun hk => hread (hf.kind hk)
  have hcode := busCode_fields hf.rsv
  rwa [harea, hkind] at hcode

/-- An operation without operand is its OP and its ARG (30_encoding.md R160 (g)). -/
theorem Fields.Admitted.opCode_noOperand {f : Fields} {operand : Nat} {op : BitVec 4} (hf : f.Admitted operand)
    (hop : f.op = op) (hread : op ≠ 0x0#4) (hoperand : opHasOperand op = false) :
    (opCode op f.arg, 0) = (codeOf f, operand) := by
  rw [hf.opCode_eq hop hread (by rintro rfl; cases hoperand), hf.operand (hop ▸ hoperand)]

/-- An operation with neither argument nor operand is its OP (30_encoding.md R160 (e), (g)). -/
theorem Fields.Admitted.opCode_bare {f : Fields} {operand : Nat} {op : BitVec 4} (hf : f.Admitted operand)
    (hop : f.op = op) (harg : opHasNoArg op = true) (hoperand : opHasOperand op = false) :
    (opCode op 0#24, 0) = (codeOf f, operand) := by
  rw [← hf.arg (hop ▸ harg)]
  exact hf.opCode_noOperand hop (by rintro rfl; cases harg) hoperand

/-- What a read decodes to is well-formed and encodes to that read (30_encoding.md R148, R150 (3)). -/
theorem encode_decodeRead (a : Area) (k : Kind) (off : Word) :
    (decodeRead a k off).wf = true ∧ encode (decodeRead a k off) = (busCode 0x0#4 a k off, 0) := by
  cases hreg : regAt a off with
  | none => simp [decodeRead, hreg, Instr.wf, encode]
  | some r =>
    obtain ⟨rfl, rfl⟩ := Prod.mk.inj (regAddr_of_regAt hreg)
    cases r with
    | tx c | rx c => fin_cases c <;> exact ⟨rfl, rfl⟩
    | hrx => cases k <;> exact ⟨rfl, rfl⟩
    | _ => exact ⟨rfl, rfl⟩

/-- What a write decodes to is well-formed and encodes to that write (30_encoding.md R148, R150 (3)). -/
theorem encode_decodeWrite (a : Area) (off : Word) (v : Nat) :
    (decodeWrite a off v).wf = true ∧ encode (decodeWrite a off v) = (busCode 0x1#4 a .ordinary off, v) := by
  cases hreg : regAt a off with
  | none => simp [decodeWrite, hreg, Instr.wf, encode]
  | some r =>
    obtain ⟨rfl, rfl⟩ := Prod.mk.inj (regAddr_of_regAt hreg)
    cases r with
    | tx c | rx c => fin_cases c <;> exact ⟨rfl, rfl⟩
    | _ => exact ⟨rfl, rfl⟩

/-- The stream id of channel `arg - base` is `arg` (30_encoding.md R149). -/
theorem ofNat_add_sub {arg : Word} {base : Nat} (h : base ≤ arg.toNat) : BitVec.ofNat 24 (base + (arg.toNat - base)) = arg := by
  rw [Nat.add_sub_of_le h, BitVec.ofNat_toNat, BitVec.setWidth_eq]

/-- What a push decodes to is well-formed and encodes to that push (30_encoding.md R149). -/
theorem encode_of_decodePush {arg : Word} {v : Nat} {i : Instr} (h : decodePush arg v = .ok i) :
    i.wf = true ∧ encode i = (opCode 0x5#4 arg, v) := by
  unfold decodePush at h
  split_ifs at h <;> cases h
  iterate 5 · subst arg; exact ⟨rfl, rfl⟩
  all_goals exact ⟨decide_eq_true (by omega), by rw [encode, ofNat_add_sub (by omega)]⟩

/-- What a pop decodes to is well-formed and encodes to that pop (30_encoding.md R149). -/
theorem encode_of_decodePop {arg : Word} {i : Instr} (h : decodePop arg = .ok i) :
    i.wf = true ∧ encode i = (opCode 0x6#4 arg, 0) := by
  unfold decodePop at h
  split_ifs at h <;> cases h
  iterate 7 · subst arg; exact ⟨rfl, rfl⟩
  all_goals exact ⟨decide_eq_true (by omega), by rw [encode, ofNat_add_sub (by omega)]⟩

/-- The twelve operations (30_encoding.md R142). -/
theorem op_cases {op : BitVec 4} (h : op.toNat < 12) :
    op = 0x0#4 ∨ op = 0x1#4 ∨ op = 0x2#4 ∨ op = 0x3#4 ∨ op = 0x4#4 ∨ op = 0x5#4 ∨ op = 0x6#4 ∨ op = 0x7#4 ∨ op = 0x8#4 ∨
      op = 0x9#4 ∨ op = 0xA#4 ∨ op = 0xB#4 := by
  revert op; decide

/-- What admitted fields are dispatched to is well-formed and encodes to the code of these fields (30_encoding.md R150). -/
theorem Fields.Admitted.encode_of_decodeOp {f : Fields} {operand : Nat} {i : Instr} (hf : f.Admitted operand)
    (h : decodeOp f operand = .ok i) : i.wf = true ∧ encode i = (codeOf f, operand) := by
  rcases op_cases hf.op with hop | hop | hop | hop | hop | hop | hop | hop | hop | hop | hop | hop <;>
    simp only [decodeOp, hop, BitVec.reduceEq, reduceIte, Except.ok.injEq] at h
  · -- BUS_READ
    rw [hf.operand (by rw [hop]; rfl), ← busCode_fields hf.rsv, hop, ← h]
    exact encode_decodeRead _ _ _
  · -- BUS_WRITE
    rw [← hf.busCode_write hop, ← h]
    exact encode_decodeWrite _ _ _
  · -- EXEC
    subst h
    exact ⟨rfl, hf.opCode_bare hop rfl rfl⟩
  · -- RESET
    subst h
    exact ⟨rfl, hf.opCode_bare hop rfl rfl⟩
  · -- TERMINATE
    subst h
    exact ⟨rfl, hf.opCode_bare hop rfl rfl⟩
  · -- HOST_PUSH
    rw [← hf.opCode_eq hop (by decide) (by decide)]
    exact encode_of_decodePush h
  · -- HOST_POP
    rw [← hf.opCode_noOperand hop (by decide) rfl]
    exact encode_of_decodePop h
  · -- DBG_SET_BP
    subst h
    exact ⟨rfl, hf.opCode_noOperand hop (by decide) rfl⟩
  · -- DBG_REMOVE_BP
    subst h
    exact ⟨rfl, hf.opCode_noOperand hop (by decide) rfl⟩
  · -- DBG_CONTINUE
    rw [← hf.opCode_eq hop (by decide) (by decide), hf.arg (by rw [hop]; rfl), ← h]
    exact ⟨rfl, rfl⟩
  · -- DBG_EXEC
    subst h
    exact ⟨rfl, hf.opCode_bare hop rfl rfl⟩
  · -- BOOT_SHI
    subst h
    exact ⟨rfl, hf.opCode_bare hop rfl rfl⟩

/-- Settles O2: a code that decodes has admitted fields, and what these are dispatched to encodes to them. -/
theorem encodeOfDecode : Obligations.EncodeOfDecode := by
  intro code operand i h
  rw [← codeOf_fieldsOf code]
  exact (admitted_of_decode h).encode_of_decodeOp (decodeOp_of_decode h)

/-! ### The codes that do not decode -/

/-- A push decodes except for an absent stream id or one of the other direction (30_encoding.md R149, R160 (f)). -/
theorem decodePush_error_iff (arg : Word) (v : Nat) : (∃ r, decodePush arg v = .error r) ↔ ¬ pushStream arg.toNat := by
  simp only [decodePush, pushStream, BitVec.toNat_eq, BitVec.toNat_ofNat]
  split_ifs <;> simp <;> omega

/-- A pop decodes except for an absent stream id or one of the other direction (30_encoding.md R149, R160 (f)). -/
theorem decodePop_error_iff (arg : Word) : (∃ r, decodePop arg = .error r) ↔ ¬ popStream arg.toNat := by
  simp only [decodePop, popStream, BitVec.toNat_eq, BitVec.toNat_ofNat]
  split_ifs <;> simp <;> omega

/-- Admitted fields are dispatched to a transaction, but for the stream ids that HOST_PUSH and HOST_POP do not take
(30_encoding.md R160 (f)). -/
theorem Fields.Admitted.decodeOp_error_iff {f : Fields} {operand : Nat} (hf : f.Admitted operand) :
    (∃ r, decodeOp f operand = .error r) ↔
      f.op = 0x5#4 ∧ ¬ pushStream f.arg.toNat ∨ f.op = 0x6#4 ∧ ¬ popStream f.arg.toNat := by
  rcases op_cases hf.op with hop | hop | hop | hop | hop | hop | hop | hop | hop | hop | hop | hop <;>
    simp [decodeOp, hop, decodePush_error_iff, decodePop_error_iff]

/-- A code is not decoded exactly when its fields are not admitted or its stream id is not one of the operation's. -/
theorem decode_error_iff (code : Code) (operand : Nat) :
    (∃ r, decode code operand = .error r) ↔
      ¬ (fieldsOf code).Admitted operand ∨ (fieldsOf code).op = 0x5#4 ∧ ¬ pushStream (fieldsOf code).arg.toNat ∨
        (fieldsOf code).op = 0x6#4 ∧ ¬ popStream (fieldsOf code).arg.toNat := by
  by_cases hf : (fieldsOf code).Admitted operand
  · have hnone := (checkFields_eq_none_iff _ _).2 hf
    rw [← hf.decodeOp_error_iff]
    simp [decode, hnone, hf]
  · obtain ⟨r, hr⟩ := Option.ne_none_iff_exists'.1 (mt (checkFields_eq_none_iff _ _).1 hf)
    simp [decode, hr, hf]

/-! ### The fields at their bits (30_encoding.md R141) -/

/-- OP is bits 31:28. -/
theorem toNat_op_fieldsOf (code : Code) : (fieldsOf code).op.toNat = code.toNat / 2 ^ 28 := by
  simp only [fieldsOf, BitVec.extractLsb'_toNat, Nat.shiftRight_eq_div_pow]
  omega

/-- ARG is bits 23:0. -/
theorem toNat_arg_fieldsOf (code : Code) : (fieldsOf code).arg.toNat = code.toNat % 2 ^ 24 := by
  simp [fieldsOf, BitVec.extractLsb'_toNat]

/-- A one-bit field is 1 when its bit is set. -/
theorem bitVec_one_eq_one_iff (b : BitVec 1) : b = 1#1 ↔ b.getLsbD 0 = true := by
  revert b; decide

/-- AREA is bit 27. -/
theorem area_fieldsOf_eq_one_iff (code : Code) : (fieldsOf code).area = 1#1 ↔ code.getLsbD 27 = true := by
  simp [bitVec_one_eq_one_iff, fieldsOf]

/-- KIND is bit 26. -/
theorem kind_fieldsOf_eq_one_iff (code : Code) : (fieldsOf code).kind = 1#1 ↔ code.getLsbD 26 = true := by
  simp [bitVec_one_eq_one_iff, fieldsOf]

/-- A two-bit field is not 0 when one of its bits is set. -/
theorem bitVec_two_ne_zero_iff (b : BitVec 2) : b ≠ 0#2 ↔ b.getLsbD 0 = true ∨ b.getLsbD 1 = true := by
  revert b; decide

/-- RSV is bits 25:24. -/
theorem rsv_fieldsOf_ne_zero_iff (code : Code) :
    (fieldsOf code).rsv ≠ 0#2 ↔ code.getLsbD 24 = true ∨ code.getLsbD 25 = true := by
  simp [bitVec_two_ne_zero_iff, fieldsOf]

/-- The operations without argument, by number (30_encoding.md R160 (e)). -/
theorem opHasNoArg_iff (op : BitVec 4) :
    opHasNoArg op = true ↔
      op.toNat = 2 ∨ op.toNat = 3 ∨ op.toNat = 4 ∨ op.toNat = 9 ∨ op.toNat = 10 ∨ op.toNat = 11 := by
  revert op; decide

/-- The operations without operand, by number (30_encoding.md R147). -/
theorem opHasOperand_eq_false_iff (op : BitVec 4) :
    opHasOperand op = false ↔ op.toNat ≠ 1 ∧ op.toNat ≠ 5 ∧ op.toNat ≠ 9 := by
  revert op; decide

/-- The clauses of 30_encoding.md R160 that admitted fields rule out, on the fields. -/
theorem Fields.not_admitted_iff (f : Fields) (operand : Nat) :
    ¬ f.Admitted operand ↔
      12 ≤ f.op.toNat ∨ f.rsv ≠ 0#2 ∨ (f.area = 1#1 ∧ f.op ≠ 0x0#4 ∧ f.op ≠ 0x1#4) ∨ (f.kind = 1#1 ∧ f.op ≠ 0x0#4) ∨
        (f.arg ≠ 0#24 ∧ opHasNoArg f.op = true) ∨ (operand ≠ 0 ∧ opHasOperand f.op = false) := by
  constructor
  · intro h
    by_contra hno
    simp only [not_or, not_and, not_not, not_le] at hno
    obtain ⟨hop, hrsv, harea, hkind, harg, hoperand⟩ := hno
    exact h ⟨hop, hrsv, fun ha => or_iff_not_imp_left.2 (harea ha), hkind, not_imp_not.1 harg, not_imp_not.1 hoperand⟩
  · rintro (h | h | ⟨h, h0, h1⟩ | ⟨h, h0⟩ | ⟨h, h0⟩ | ⟨h, h0⟩) hf
    · exact absurd hf.op (Nat.not_lt.2 h)
    · exact h hf.rsv
    · exact (hf.area h).elim h0 h1
    · exact h0 (hf.kind h)
    · exact h (hf.arg h0)
    · exact h (hf.operand h0)

end Sys2Proof

namespace Sys2Proof.Machine

open Sys2Proof.Claims

/-! ### No transaction that decodes is refused for its encoding -/

/-- The outcome is no refusal (60_exceptions.md R534). -/
def NotRefused (o : Out) : Prop := ∀ r, o ≠ .refused r

theorem notRefused_next (s : State) : NotRefused (.next s) := by rintro r ⟨⟩

theorem notRefused_fault (f : Fault) : NotRefused (.fault f) := by rintro r ⟨⟩

/-- A stretch of E is not refused if what follows a part that is done is not: a hold and an abort have a next state. -/
theorem Res.outcome_notRefused {α : Type} (fr : Frame) {k : α → State → Out} (r : Res α) (hk : ∀ a t, NotRefused (k a t)) :
    NotRefused (r.outcome fr k) := by
  cases r with
  | done a t => exact hk a t
  | hold p t => exact notRefused_next _
  | abort t => exact notRefused_next _
  | fault f => exact notRefused_fault f

theorem Res.endE_notRefused (r : Res Result) : NotRefused r.endE :=
  r.outcome_notRefused .bare fun _ _ => notRefused_next _

theorem coreTxns_notRefused (l : List BusTxn) (s : State) : NotRefused (coreTxns l s) := by
  induction l generalizing s with
  | nil => exact Res.outcome_notRefused .coreExec _ fun _ _ => notRefused_next _
  | cons t ts ih => exact Res.outcome_notRefused (.coreTxns ts) _ fun _ _ => ih _

theorem dstepFromWait_notRefused (s : State) : NotRefused (dstepFromWait s) := by
  unfold dstepFromWait
  split
  · exact notRefused_next _
  · split
    · exact notRefused_next _
    · exact coreTxns_notRefused _ s

theorem hostRun_notRefused (ag : Agent) (op : HostOp) (s : State) : NotRefused (hostRun ag op s) := by
  unfold hostRun
  split <;> exact notRefused_next _

theorem NotRefused.ifBound {o : Out} (h : NotRefused o) (s : State) :
    NotRefused (if s.bus.bound then o else .fault .unboundCore) := by
  split
  · exact h
  · exact notRefused_fault _

/-- Every transaction has a meaning (60_exceptions.md R534). -/
theorem exec_notRefused (i : Instr) (s : State) : NotRefused (exec i s) := by
  cases i with
  | exec => exact (Res.endE_notRefused _).ifBound s
  | dstep => exact (dstepFromWait_notRefused s).ifBound s
  | boot => exact (Res.endE_notRefused _).ifBound s
  | reset | terminate | bkptSet _ | bkptDel _ | cont _ | hpushEsaiIn4to7 _ _ | hpushEsaiIn8to15 _ _ | hpopEsaiOut6to7 _
  | hpopEsaiOut8to15 _ => exact notRefused_next _
  | hpushShiRx _ | hpushEsaiIn0 _ | hpushEsaiIn1 _ | hpushEsaiIn2 _ | hpushEsaiIn3 _ | hpopShiTx | hpopEsaiOut0 | hpopEsaiOut1
  | hpopEsaiOut2 | hpopEsaiOut3 | hpopEsaiOut4 | hpopEsaiOut5 => exact hostRun_notRefused s.issuer _ s
  | _ => exact Res.endE_notRefused _

/-- A step refuses a transaction for its encoding exactly when its code does not decode (30_encoding.md R151,
60_exceptions.md R534): a transaction that is not its agent's is refused for another reason. -/
theorem step_refused_encoding_iff {s : State} {ag : Agent} {code : Code} {operand : Nat} {rest : List Entry}
    (hs : s.sched = .issue ag code operand :: rest) :
    (∃ r, step s = .refused (.encoding r)) ↔ ∃ r, decode code operand = .error r := by
  cases hd : decode code operand with
  | error r => simp [step, fetch, hs, fetchIssue, hd]
  | ok i =>
    suffices h : ∀ r, step s ≠ .refused (.encoding r) by simp [h]
    intro r
    cases ha : agentMayIssue ag (fieldsOf code).op with
    | false => simp [step, fetch, hs, fetchIssue, hd, ha]
    | true =>
      cases hr : s.ready ag with
      | false =>
        rw [step_issue_passedOver hs hd ha hr]
        exact notRefused_next _ _
      | true =>
        rw [step_issue hs hd ha hr]
        exact exec_notRefused i _ _

/-- The decoder's refusals are the clauses of 30_encoding.md R160 on the bits of the code. -/
theorem decode_error_iff_notAdmitted (code : Code) (operand : Nat) :
    (∃ r, decode code operand = .error r) ↔ notAdmitted code operand := by
  have hop (op : BitVec 4) : (fieldsOf code).op = op ↔ code.toNat / 2 ^ 28 = op.toNat := by
    rw [← toNat_op_fieldsOf, BitVec.toNat_eq]
  have harg (arg : Word) : (fieldsOf code).arg = arg ↔ code.toNat % 2 ^ 24 = arg.toNat := by
    rw [← toNat_arg_fieldsOf, BitVec.toNat_eq]
  rw [decode_error_iff, Fields.not_admitted_iff, opHasNoArg_iff, opHasOperand_eq_false_iff, rsv_fieldsOf_ne_zero_iff,
    area_fieldsOf_eq_one_iff, kind_fieldsOf_eq_one_iff, toNat_op_fieldsOf, toNat_arg_fieldsOf]
  simp only [ne_eq, hop, harg, notAdmitted, BitVec.reduceToNat, or_assoc]
  rw [or_rotate (a := ¬ operand = 0 ∧ _)] -- R160 gives the operand clause after those of the streams

/-- Settles O3: a step refuses for the encoding exactly what does not decode, and that is what a clause of R160 holds of. -/
theorem refusesExactlyInadmissibleCodes : Obligations.RefusesExactlyInadmissibleCodes := by
  intro s ag code operand rest hs
  rw [step_refused_encoding_iff hs, decode_error_iff_notAdmitted]

end Sys2Proof.Machine

/-! PROOFS. The views of a word (40_bitfield.md): a merge is read back, leaves disjoint fields alone and puts back what a field holds,
and the test of a Set view is a bit of the word. -/

namespace Sys2Proof.Machine

/-! ### The bits of a field -/

/-- A value that fits a width has no bit beyond it. -/
theorem testBit_eq_false_of_fits {n w p : Nat} (hn : n < 2 ^ w) (hp : w ≤ p) : n.testBit p = false :=
  Nat.testBit_eq_false_of_lt (hn.trans_le (Nat.pow_le_pow_right Nat.two_pos hp))

/-- The bits of a packed view are those of the word from the offset on, below the width (40_bitfield.md R203). -/
theorem testBit_packedView (d : Desc) (x : Word) (p : Nat) :
    (packedView d x).testBit p = (decide (p < d.w) && x.getLsbD (d.o + p)) := by
  simp [packedView, BitVec.getLsbD]

/-- A packed view fits its width. -/
theorem packedView_lt (d : Desc) (x : Word) : packedView d x < 2 ^ d.w :=
  Nat.mod_lt _ (Nat.two_pow_pos d.w)

/-- A number below `2^w` whose bits the word has at the field is its packed view (40_bitfield.md R203). -/
theorem packedView_eq_of_testBit {d : Desc} {x : Word} {n : Nat} (hn : n < 2 ^ d.w)
    (h : ∀ p < d.w, x.getLsbD (d.o + p) = n.testBit p) : packedView d x = n := by
  apply Nat.eq_of_testBit_eq
  intro p
  rw [testBit_packedView]
  by_cases hp : p < d.w
  · simp [hp, h p hp]
  · simp [hp, testBit_eq_false_of_fits hn (Nat.not_lt.1 hp)]

/-- A value that fits a field, shifted to it, has bits at the field only. -/
theorem getLsbD_ofNat_shiftLeft {d : Desc} {n : Nat} (hn : n < 2 ^ d.w) (i : Nat) :
    (BitVec.ofNat 24 n <<< d.o).getLsbD i = (decide (d.o ≤ i ∧ i < d.o + d.w) && n.testBit (i - d.o)) := by
  have hwf := d.wf
  rw [BitVec.getLsbD_shiftLeft, BitVec.getLsbD_ofNat]
  by_cases hin : d.o ≤ i ∧ i < d.o + d.w
  · have hi : i < 24 ∧ i - d.o < 24 := by omega
    simp [hin, hi, Nat.not_lt.2 hin.1]
  · by_cases hlt : i < d.o
    · simp [hin, hlt]
    · have hbeyond : d.w ≤ i - d.o := by omega
      simp [hin, testBit_eq_false_of_fits hn hbeyond]

/-- The mask of a field has the bits from its offset on, as many as its width (40_bitfield.md R201). -/
theorem getLsbD_fieldMask (d : Desc) (i : Nat) :
    (fieldMask d).getLsbD i = decide (d.o ≤ i ∧ i < d.o + d.w) := by
  rw [fieldMask, getLsbD_ofNat_shiftLeft (Nat.sub_lt (Nat.two_pow_pos d.w) Nat.one_pos), Nat.testBit_two_pow_sub_one,
    ← Bool.decide_and]
  exact decide_eq_decide.2 (and_iff_left_of_imp (by omega))

/-- A merged word has the bits of the sub-view's value at its field, and elsewhere those of the word (40_bitfield.md R207). -/
theorem getLsbD_mergeView (f : SubView) (x : Word) (i : Nat) :
    (mergeView f x).getLsbD i =
      if f.desc.o ≤ i ∧ i < f.desc.o + f.desc.w then f.val.testBit (i - f.desc.o) else x.getLsbD i := by
  rw [mergeView, Nat.mod_eq_of_lt f.fits, BitVec.getLsbD_or, BitVec.getLsbD_and, BitVec.getLsbD_not, getLsbD_fieldMask,
    getLsbD_ofNat_shiftLeft f.fits]
  split
  next hin => simp [hin]
  next hout => simpa [hout] using BitVec.lt_of_getLsbD

/-! ### Merges (40_bitfield.md R209) -/

/-- The first law: a merge is read back. -/
theorem packedView_mergeView (f : SubView) (x : Word) : packedView f.desc (mergeView f x) = f.val := by
  apply packedView_eq_of_testBit f.fits
  intro p hp
  simp [getLsbD_mergeView, hp]

/-- The second law: a bit of a disjoint field is no bit of the merged one. -/
theorem packedView_mergeView_of_disjoint {f : SubView} {d : Desc} (h : f.desc.disjoint d = true) (x : Word) :
    packedView d (mergeView f x) = packedView d x := by
  have hsep : f.desc.o + f.desc.w ≤ d.o ∨ d.o + d.w ≤ f.desc.o := of_decide_eq_true h
  apply packedView_eq_of_testBit (packedView_lt d x)
  intro p hp
  have hout : ¬ (f.desc.o ≤ d.o + p ∧ d.o + p < f.desc.o + f.desc.w) := by omega
  simp [getLsbD_mergeView, hout, testBit_packedView, hp]

/-- The third law: merging what a field holds changes nothing. -/
theorem mergeView_subViewOfWord (d : Desc) (x : Word) : mergeView (subViewOfWord d x) x = x := by
  apply BitVec.eq_of_getLsbD_eq
  intro i _
  rw [getLsbD_mergeView]
  split
  next hin =>
    obtain ⟨p, rfl⟩ := Nat.exists_eq_add_of_le hin.1
    have hp : p < d.w := Nat.add_lt_add_iff_left.1 hin.2
    simp [subViewOfWord, testBit_packedView, hp]
  next => rfl

/-- A raw value below `2^w` is what its sub-view holds (40_bitfield.md R205). -/
theorem val_subViewOfRaw_of_lt {d : Desc} {v : Nat} (h : v < 2 ^ d.w) : (subViewOfRaw d v).val = v :=
  Nat.mod_eq_of_lt h

/-- Settles O54: the bits of a merged word are those of the value at the field and those of the word elsewhere. -/
theorem bitFieldLaws : Obligations.BitFieldLaws := by
  intro o w h x f hf
  refine ⟨?_, fun d' hd' => packedView_mergeView_of_disjoint hd' x, mergeView_subViewOfWord _ x⟩
  exact (packedView_mergeView _ x).trans (val_subViewOfRaw_of_lt hf)

/-! ### The test of a Set view (40_bitfield.md R204) -/

/-- A position below the width is a bit of the word. -/
theorem setTestChecked_of_lt {d : Desc} {pos : Nat} (h : pos < d.w) (x : Word) :
    setTestChecked d pos x = .ok (x.getLsbD (d.o + pos)) := by
  rw [setTestChecked, if_pos h, setTest_eq d pos x h]

/-- A position beyond the width is a fault (60_exceptions.md R533). -/
theorem setTestChecked_of_le {d : Desc} {pos : Nat} (h : d.w ≤ pos) (x : Word) :
    setTestChecked d pos x = .error .bitFieldTestRange :=
  if_neg (Nat.not_lt.2 h)

/-- A field holds 0 when none of its bits is set in the word. -/
theorem packedView_eq_zero_iff (d : Desc) (x : Word) :
    packedView d x = 0 ↔ ∀ p < d.w, x.getLsbD (d.o + p) = false := by
  constructor
  · intro h p hp
    simpa [h, hp] using (testBit_packedView d x p).symm
  · intro h
    apply packedView_eq_of_testBit (Nat.two_pow_pos d.w)
    intro p hp
    rw [h p hp, Nat.zero_testBit]

/-- Settles O55: below the width the test reads a bit of the word, and the value is 0 when each of these bits is clear. -/
theorem setViewTest : Obligations.SetViewTest := by
  intro d x pos
  refine ⟨fun h => setTestChecked_of_lt h x, fun h => setTestChecked_of_le h x, ?_⟩
  rw [packedView_eq_zero_iff]
  refine forall₂_congr fun p hp => ?_
  rw [setTestChecked_of_lt hp, Except.ok.injEq]

end Sys2Proof.Machine

/-! PROOFS. The bus (41_bus.md): registration in any order gives the documented map, and what RESET, TERMINATE and an EXEC without an
enabled output channel change. -/

namespace Sys2Proof.Machine

open Sys2Proof.Claims

/-! ### The order of registration (41_bus.md R230) -/

/-- Whatever `PERIPH_ORDER` is, `bus.list` has each of the five peripherals once. -/
theorem periphList_perm (o : PeriphOrder) : (periphList o).Perm [.cgm, .shi, .esai, .ccm, .chid] := by
  have h : ∀ (a : Fin 5) (b : Fin 4) (c : Fin 3) (d : Fin 2),
      (periphList ⟨a, b, c, d⟩).Perm [.cgm, .shi, .esai, .ccm, .chid] := by decide
  exact h o.first o.second o.third o.fourth

/-- Every peripheral is in `bus.list`. -/
theorem mem_periphList (p : Periph) (o : PeriphOrder) : p ∈ periphList o := by
  rw [(periphList_perm o).mem_iff]
  cases p <;> decide

/-- The five peripherals report the pairs of the documented map between them, in whatever order they stand (10_state.md R62). -/
theorem flatMap_registersOf_perm (o : PeriphOrder) : ((periphList o).flatMap registersOf).Perm regTable :=
  ((periphList_perm o).flatMap_right registersOf).trans (by decide)

/-! ### Registering one pair (41_bus.md R231) -/

/-- The pair registered is bound to its register, taken before or not: the later registration wins. -/
theorem lookup_mapInsert (p : Area × Word) (r : Reg) (m : List ((Area × Word) × Reg)) :
    (mapInsert (p, r) m).lookup p = some r := by
  induction m with
  | nil => simp [mapInsert]
  | cons f m ih =>
    rw [mapInsert]
    split
    next => simp
    next hne =>
      split
      next => simp
      next =>
        have hb : (p == f.1) = false := beq_false_of_ne hne
        rwa [List.lookup, hb]

/-- A pair's place among all pairs: X before Y, then by offset. -/
def pairKey (p : Area × Word) : Nat :=
  match p.1 with
  | .x => p.2.toNat
  | .y => 2 ^ 24 + p.2.toNat

/-- The order in which the map lists its pairs is that of their places. -/
theorem pairBefore_iff (p q : Area × Word) : pairBefore p q = true ↔ pairKey p < pairKey q := by
  obtain ⟨a, x⟩ := p
  obtain ⟨b, y⟩ := q
  have hx := x.isLt
  have hy := y.isLt
  cases a <;> cases b <;> simp [pairBefore, pairKey] <;> omega

/-- Different pairs have different places. -/
theorem pairKey_injective : Function.Injective pairKey := by
  rintro ⟨a, x⟩ ⟨b, y⟩ h
  have hx := x.isLt
  have hy := y.isLt
  cases a <;> cases b <;> simp [pairKey, BitVec.toNat_eq] at h ⊢ <;> omega

/-- The map lists its pairs in their order, each once. -/
def MapSorted (m : List ((Area × Word) × Reg)) : Prop := m.Pairwise fun e f => pairKey e.1 < pairKey f.1

/-- A new pair comes into the map beside the others. -/
theorem mapInsert_perm {e : (Area × Word) × Reg} {m : List ((Area × Word) × Reg)} (hnew : e.1 ∉ m.map Prod.fst) :
    (mapInsert e m).Perm (e :: m) := by
  induction m with
  | nil => exact .refl _
  | cons f m ih =>
    obtain ⟨hne, hnew⟩ : e.1 ≠ f.1 ∧ e.1 ∉ m.map Prod.fst := by simpa using hnew
    rw [mapInsert, if_neg hne]
    split
    · exact .refl _
    · exact ((ih hnew).cons f).trans (.swap e f m)

/-- A new pair comes into the map at its place. -/
theorem MapSorted.mapInsert {e : (Area × Word) × Reg} {m : List ((Area × Word) × Reg)} (hm : MapSorted m)
    (hnew : e.1 ∉ m.map Prod.fst) : MapSorted (mapInsert e m) := by
  induction m with
  | nil => exact List.pairwise_singleton _ e
  | cons f m ih =>
    obtain ⟨hfirst, hrest⟩ := List.pairwise_cons.1 hm
    obtain ⟨hne, hnew⟩ : e.1 ≠ f.1 ∧ e.1 ∉ m.map Prod.fst := by simpa using hnew
    rw [Machine.mapInsert, if_neg hne]
    split
    next hbefore =>
      rw [pairBefore_iff] at hbefore
      refine List.pairwise_cons.2 ⟨fun g hg => ?_, hm⟩
      rcases List.mem_cons.1 hg with rfl | hg
      · exact hbefore
      · exact hbefore.trans (hfirst g hg)
    next hafter =>
      rw [pairBefore_iff, not_lt] at hafter
      refine List.pairwise_cons.2 ⟨fun g hg => ?_, ih hrest hnew⟩
      rcases List.mem_cons.1 ((mapInsert_perm hnew).mem_iff.1 hg) with rfl | hg
      · exact hafter.lt_of_ne (pairKey_injective.ne hne.symm)
      · exact hfirst g hg

/-- A map is known from its entries: they have one order. -/
theorem MapSorted.eq_of_perm {m m' : List ((Area × Word) × Reg)} (hm : MapSorted m) (hm' : MapSorted m') (h : m.Perm m') :
    m = m' :=
  h.eq_of_pairwise (fun _ _ _ _ hef hfe => absurd hfe hef.asymm) hm hm'

/-! ### Registering the five peripherals (41_bus.md R230, R231) -/

/-- A pair that is not taken comes into the map without a hazard. -/
theorem registerPair_new {e : (Area × Word) × Reg} {m : List ((Area × Word) × Reg)} (hnew : e.1 ∉ m.map Prod.fst)
    (h : List Event) : registerPair (m, h) e = (mapInsert e m, h) := by
  have hfree : m.lookup e.1 = none := by
    rw [List.lookup_eq_none_iff]
    exact fun f hf => bne_iff_ne.2 fun heq => hnew (heq ▸ List.mem_map_of_mem hf)
  simp [registerPair, hfree]

/-- Registering different pairs, none of them taken, adds them all at their places and logs no hazard. -/
theorem foldl_registerPair (l m : List ((Area × Word) × Reg)) (h : List Event) (hm : MapSorted m)
    (hnew : ((l ++ m).map Prod.fst).Nodup) :
    ∃ m', l.foldl registerPair (m, h) = (m', h) ∧ MapSorted m' ∧ m'.Perm (l ++ m) := by
  induction l generalizing m with
  | nil => exact ⟨m, rfl, hm, .refl m⟩
  | cons e l ih =>
    have hperm : (l ++ e :: m).Perm (e :: l ++ m) := List.perm_middle
    have hnew' := (hperm.map Prod.fst).nodup_iff.2 hnew
    have hfree : e.1 ∉ m.map Prod.fst := by
      rw [List.map_append] at hnew'
      exact (List.nodup_cons.1 hnew'.of_append_right).1
    have hins := (mapInsert_perm hfree).append_left l
    obtain ⟨m', hfold, hsorted, hm'⟩ := ih (mapInsert e m) (hm.mapInsert hfree) ((hins.map Prod.fst).nodup_iff.2 hnew')
    refine ⟨m', ?_, hsorted, hm'.trans (hins.trans hperm)⟩
    rw [List.foldl_cons, registerPair_new hfree, hfold]

/-- The 25 pairs of the documented map are different (10_state.md R62). -/
theorem regTable_nodup : (regTable.map Prod.fst).Nodup := by decide

theorem regTable_sorted : MapSorted regTable := by
  unfold MapSorted; decide

/-- Construction in any order leaves the documented map and logs nothing. -/
theorem construction_periphList (o : PeriphOrder) : construction (periphList o) = (regTable, []) := by
  have hperm := flatMap_registersOf_perm o
  obtain ⟨m, hfold, hsorted, hm⟩ := foldl_registerPair ((periphList o).flatMap registersOf) [] [] .nil
    (by rw [List.append_nil]; exact (hperm.map Prod.fst).nodup_iff.2 regTable_nodup)
  rw [List.append_nil] at hm
  rw [construction, ← List.foldl_flatMap, hfold, hsorted.eq_of_perm regTable_sorted (hm.trans hperm)]

/-- Settles O24: new pairs come into a sorted map, and a sorted map is known from its entries. -/
theorem registrationGivesTheMap : Obligations.RegistrationGivesTheMap := by
  refine ⟨fun o => ⟨periphList_perm o, construction_periphList o⟩, rfl, regTable_nodup, fun m h p r => ?_⟩
  refine ⟨lookup_mapInsert p r m, ?_⟩
  simp only [registerPair]
  split <;> simp

/-! ### RESET (41_bus.md R237) -/

/-- Settles O25: the peripherals' `reset()` does nothing. -/
theorem resetOnlyBinds : Obligations.ResetOnlyBinds := by
  intro s
  show execReset s = _
  rw [execReset, State.resetAll_eq]
  rfl

/-! ### TERMINATE (41_bus.md R238) -/

/-- The state with some of the queues shut, one after the other. -/
def State.shutQueues (l : List QId) (s : State) : State := l.foldl (fun t id => t.shutQueue id) s

/-- The queues shut are those named, and they keep their words (42_queue.md R274). -/
theorem State.shutQueues_queue (l : List QId) (s : State) (id : QId) :
    (s.shutQueues l).queue id = if id ∈ l then (s.queue id).shutdown else s.queue id := by
  induction l generalizing s with
  | nil => rfl
  | cons a l ih =>
    have hstep : (s.shutQueues (a :: l)).queue id = ((s.shutQueue a).shutQueues l).queue id := rfl
    rw [hstep, ih, State.shutQueue_queue]
    by_cases ha : id = a
    · subst ha
      simp [Queue.shutdown]
    · simp [ha]

/-- The state `t` is `s` but for the twelve queues (42_queue.md R280). -/
def State.OnlyQueues (s t : State) : Prop :=
  ∃ (rxq txq : Queue) (outq : Vector Queue 6) (inq : Vector Queue 4),
    t = { s with shi := { s.shi with rxq := rxq, txq := txq }, esai := { s.esai with outq := outq, inq := inq } }

theorem State.OnlyQueues.trans {s t u : State} (h : s.OnlyQueues t) (g : t.OnlyQueues u) : s.OnlyQueues u := by
  obtain ⟨_, _, _, _, rfl⟩ := h
  obtain ⟨rxq, txq, outq, inq, rfl⟩ := g
  exact ⟨rxq, txq, outq, inq, rfl⟩

theorem State.OnlyQueues.shutQueue (s : State) (id : QId) : s.OnlyQueues (s.shutQueue id) := by
  cases id <;> exact ⟨_, _, _, _, rfl⟩

theorem State.OnlyQueues.shutQueues (l : List QId) (s : State) : s.OnlyQueues (s.shutQueues l) := by
  induction l generalizing s with
  | nil => exact ⟨_, _, _, _, rfl⟩
  | cons a l ih => exact (State.OnlyQueues.shutQueue s a).trans (ih (s.shutQueue a))

/-- The queues of a peripheral (42_queue.md R280). -/
def queuesOf : Periph → List QId
  | .shi => [.shiRx, .shiTx]
  | .esai => outChannels.map .out ++ inChannels.map .inp
  | .cgm | .ccm | .chid => []

/-- A peripheral's `terminate()` shuts its queues. -/
theorem periphTerminate_eq (p : Periph) (s : State) : periphTerminate p s = s.shutQueues (queuesOf p) := by
  cases p <;> rfl

/-- TERMINATE shuts the queues of the peripherals in `bus.list`. -/
theorem State.terminateAll_eq (s : State) :
    s.terminateAll = s.shutQueues ((periphList s.cfg.order).flatMap queuesOf) := by
  simp only [State.terminateAll, periphTerminate_eq, State.shutQueues, List.foldl_flatMap]

/-- Every queue is a peripheral's, so every queue is shut. -/
theorem mem_flatMap_queuesOf (id : QId) (o : PeriphOrder) : id ∈ (periphList o).flatMap queuesOf := by
  have howner : ∃ p, id ∈ queuesOf p := by
    cases id with
    | shiRx => exact ⟨.shi, by decide⟩
    | shiTx => exact ⟨.shi, by decide⟩
    | out c => exact ⟨.esai, by revert c; decide⟩
    | inp c => exact ⟨.esai, by revert c; decide⟩
  obtain ⟨p, hp⟩ := howner
  exact List.mem_flatMap.2 ⟨p, mem_periphList p o, hp⟩

/-- Settles O26: TERMINATE is the shutting of a list of queues that has all twelve. -/
theorem terminateShutsEveryQueue : Obligations.TerminateShutsEveryQueue := by
  intro s
  refine ⟨s.terminateAll, rfl, fun id => ?_, ?_⟩
  · rw [State.terminateAll_eq, State.shutQueues_queue, if_pos (mem_flatMap_queuesOf id s.cfg.order)]
    rfl
  · have honly : s.OnlyQueues s.terminateAll := by
      rw [State.terminateAll_eq]
      exact .shutQueues _ s
    obtain ⟨rxq, txq, outq, inq, heq⟩ := honly
    rw [heq]
    exact ⟨rfl, rfl, rfl⟩

/-! ### EXEC with no output channel enabled (41_bus.md R236, 43_esai.md R311) -/

/-- The ESAI does nothing while no output channel is enabled. -/
theorem esaiExec_of_te_eq_zero {s : State} (h : te s = 0#6) (rest : List Periph) : esaiExec rest s = .done () s :=
  if_pos (s.esai.te_eq_zero.2 h)

/-- With no output channel enabled EXEC's fan-out is the SHI tick, on whichever side of the ESAI the SHI stands. -/
theorem execAll_of_te_eq_zero {s : State} (h : te s = 0#6) : execAll s = .done () s.shiExec := by
  have hshi : te s.shiExec = 0#6 := by rwa [te, State.shiExec_esai]
  rw [execAll_eq]
  cases shiFirst s.cfg.order with
  | true => exact congrArg (Res.bind · _) (esaiExec_of_te_eq_zero hshi _)
  | false => exact congrArg (Res.bind · _) (esaiExec_of_te_eq_zero h _)

/-- EXEC of a bound engine is its fan-out (41_bus.md R239). -/
theorem exec_exec_of_bound {s : State} (hb : s.bus.bound = true) :
    exec .exec s = ((execAll s).map fun _ => Result.unit).endE :=
  if_pos hb

/-- Settles O28: only the SHI ticks, and `State.shiExec_eq` says in bits what its tick does. -/
theorem execDeliversShi : Obligations.ExecDeliversShi := by
  intro s hb hte
  rw [exec_exec_of_bound hb, execAll_of_te_eq_zero hte, State.shiExec_eq]
  rfl

end Sys2Proof.Machine

/-! PROOFS. The queues (42_queue.md): first in, first out, and shut for good; and what every step keeps with them, the invariant of the
machine. -/

namespace Sys2Proof.Machine

open Sys2Proof.Claims

/-! ### A run of pushes and pops -/

/-- A run of pushes and pops from a queue that held the words `base` has come to an open queue `q` within the capacity, with the words
`ins` pushed and `outs` popped, and no word has been lost, doubled or put out of order (42_queue.md R278). -/
structure FifoFrom (base : List Word) (q : Queue) (ins outs : List Word) : Prop where
  isOpen : q.shut = false
  room : q.items.length ≤ Config.qcap
  order : outs ++ q.items = base ++ ins

/-- A push that completes puts its word last (42_queue.md R271). -/
theorem FifoFrom.push {base ins outs : List Word} {q : Queue} (h : FifoFrom base q ins outs) (v : Word)
    (hl : q.items.length < Config.qcap) :
    FifoFrom base { items := q.items ++ [v], shut := false } (ins ++ [v]) outs where
  isOpen := rfl
  room := by simpa using hl
  order := by rw [← List.append_assoc, h.order, List.append_assoc]

/-- A pop that completes takes the first word (42_queue.md R272). -/
theorem FifoFrom.pop {base ins outs ws : List Word} {q : Queue} {w : Word} (h : FifoFrom base q ins outs)
    (hq : q.items = w :: ws) : FifoFrom base { items := ws, shut := false } ins (outs ++ [w]) where
  isOpen := rfl
  room := (Nat.le_succ _).trans (by simpa [hq] using h.room)
  order := by rw [← h.order, hq, List.append_assoc]; rfl

/-- Every run keeps the order, the operations that must wait left out (42_queue.md R278). -/
theorem FifoFrom.run {base : List Word} (ops : List QueueOp) {q : Queue} {ins outs : List Word}
    (h : FifoFrom base q ins outs) :
    FifoFrom base (queueRun ops q ins outs).1 (queueRun ops q ins outs).2.1 (queueRun ops q ins outs).2.2 := by
  induction ops generalizing q ins outs with
  | nil => exact h
  | cons op ops ih =>
    cases op with
    | push v =>
      by_cases hl : q.items.length < Config.qcap
      · simpa only [queueRun, Queue.push_ok q v h.isOpen hl] using ih (h.push v hl)
      · simpa only [queueRun, Queue.push_block q v h.isOpen (Nat.not_lt.1 hl)] using ih h
    | pop =>
      cases hq : q.items with
      | nil => simpa only [queueRun, Queue.pop_block q h.isOpen hq] using ih h
      | cons w ws => simpa only [queueRun, Queue.pop_ok q w ws h.isOpen hq] using ih (h.pop hq)

/-- Settles O43: `FifoFrom` holds before the first operation, and every operation keeps it. -/
theorem queueIsFifo : Obligations.QueueIsFifo := by
  intro q ops hopen hroom
  have start : FifoFrom q.items q [] [] := ⟨hopen, hroom, by simp⟩
  have run := start.run ops
  exact ⟨run.order, run.room, run.isOpen⟩

/-! ### What every step keeps -/

/-- The state `t` may come after `s`: it meets the invariant if `s` does, and a queue that was shut is as it was (10_state.md R30-R56,
42_queue.md R274). -/
structure State.Advances (s t : State) : Prop where
  inv : s.Inv → t.Inv
  shut : ∀ id, (s.queue id).shut = true → t.queue id = s.queue id

/-- The next state of an outcome, if it has one, may come after `s`. -/
def State.AdvancesTo (s : State) (o : Out) : Prop := ∀ t, o = .next t → s.Advances t

theorem State.Advances.refl (s : State) : s.Advances s := ⟨id, fun _ _ => rfl⟩

theorem State.Advances.trans {s t u : State} (h : s.Advances t) (g : t.Advances u) : s.Advances u where
  inv hi := g.inv (h.inv hi)
  shut id hs := (g.shut id (by rwa [h.shut id hs])).trans (h.shut id hs)

theorem State.Advances.toNext {s t : State} (h : s.Advances t) : s.AdvancesTo (.next t) := by
  rintro _ ⟨⟩
  exact h

theorem State.Advances.then {s t : State} {o : Out} (h : s.Advances t) (g : t.AdvancesTo o) : s.AdvancesTo o :=
  fun u hu => h.trans (g u hu)

theorem State.advancesTo_fault (s : State) (f : Fault) : s.AdvancesTo (.fault f) := by
  rintro _ ⟨⟩

/-- The invariant has both areas' memories in canonical form (10_state.md R33). -/
theorem State.Inv.memWf {s : State} (h : s.Inv) : s.MemWf
  | .x => h.memX
  | .y => h.memY

/-- A part of a transaction of E keeps the invariant (00_scope.md R13). -/
theorem State.Within.advances {s t : State} (h : s.Within t) : s.Advances t where
  inv hi :=
    { mapped := h.map.trans hi.mapped
      memX := h.mem hi.memWf .x
      memY := h.mem hi.memWf .y
      queues := fun id => h.room id (hi.queues id)
      mode := by rw [h.dbg]; exact hi.mode
      bps := by rw [h.dbg]; exact hi.bps
      snap := by rw [h.cfg]; exact h.snap hi.snap
      aborted := by rw [h.e]; exact hi.aborted
      hosts := by rw [h.hosts]; exact hi.hosts }
  shut := h.shut

/-! ### The updates of the agents, the debugger and the records -/

/-- The schedule, the issuer, the view of the core and the replies are no part of the invariant (logs 3, 5 and 6). -/
theorem State.Advances.records (s : State) (l : List Entry) (ag : Agent) (v : CoreView) (rs : List Reply) :
    s.Advances { s with sched := l, issuer := ag, core := v, replies := rs } where
  inv h := { h with }
  shut id _ := by cases id <;> rfl

theorem State.Advances.reply (s : State) (ag : Agent) (o : Ending) : s.Advances (s.reply ag o) :=
  .records s s.sched s.issuer s.core _

theorem State.Advances.coreRetire (s : State) : s.Advances s.coreRetire :=
  .records s s.sched s.issuer _ s.replies

/-- RESET binds the engine (41_bus.md R237). -/
theorem State.Advances.resetAll (s : State) : s.Advances s.resetAll := by
  rw [State.resetAll_eq]
  exact { inv := fun h => { h with }, shut := fun id _ => by cases id <;> rfl }

/-- A mode with a running count of 0 is not set where there was none (10_state.md R53). -/
theorem State.Advances.setMode {s : State} {m : DbgMode} (hm : s.dbg.mode ≠ .running (some 0) → m ≠ .running (some 0)) :
    s.Advances (s.setMode m) where
  inv h := { h with mode := hm h.mode }
  shut id _ := s.setMode_queue m id

/-- A set of breakpoints in canonical form takes the place of one (10_state.md R54). -/
theorem State.Advances.setBps {s : State} {l : List Word} (hl : bpsWf s.dbg.bps = true → bpsWf l = true) :
    s.Advances (s.setBps l) where
  inv h := { h with bps := hl h.bps }
  shut id _ := s.setBps_queue l id

/-- E is ready when it is Live and held in nothing (00_scope.md R13, 10_state.md R55). -/
theorem State.ready_e_iff (s : State) : s.ready .e = true ↔ s.e.status = .live ∧ s.e.held = none := by
  simp [State.ready]

/-- Only a Live E comes to be held (10_state.md R55). -/
theorem State.Advances.holdE {s : State} (hr : s.ready .e = true) (h : Held) : s.Advances (s.holdE h) where
  inv hi := { hi with aborted := by simp [(s.ready_e_iff.1 hr).1] }
  shut id _ := s.holdE_queue h id

/-- Only an E that is held in nothing aborts (41_bus.md R240). -/
theorem State.Advances.abortE {s : State} (hr : s.ready .e = true) : s.Advances s.abortE where
  inv hi := { hi with aborted := fun _ => (s.ready_e_iff.1 hr).2 }
  shut id _ := s.abortE_queue id

theorem State.Advances.freeE (s : State) : s.Advances s.freeE where
  inv hi := { hi with aborted := fun _ => rfl }
  shut id _ := s.freeE_queue id

/-- A host is free when it is not among the held (00_scope.md R13). -/
theorem State.hostFree_iff (s : State) (ag : Agent) : s.hostFree ag = true ↔ ag ∉ s.hosts.map Prod.fst := by
  simp only [State.hostFree, Option.isNone_iff_eq_none, List.lookup_eq_none_iff, bne_iff_ne, List.mem_map, not_exists, not_and]
  exact forall₂_congr fun _ _ => ne_comm

theorem State.hostFree_freeHost (s : State) (ag : Agent) : (s.freeHost ag).hostFree ag = true := by
  simp [State.hostFree_iff]

/-- Only a host that is held in nothing comes to be held (00_scope.md R13). -/
theorem State.Advances.holdHost {s : State} {ag : Agent} (hf : s.hostFree ag = true) (op : HostOp) :
    s.Advances (s.holdHost ag op) where
  inv hi :=
    { hi with
      hosts := by
        rw [State.holdHost_hosts, List.map_append]
        exact hi.hosts.append (List.nodup_singleton ag) (by simpa using (s.hostFree_iff ag).1 hf) }
  shut id _ := s.holdHost_queue ag op id

theorem State.Advances.freeHost (s : State) (ag : Agent) : s.Advances (s.freeHost ag) where
  inv hi := { hi with hosts := hi.hosts.sublist (List.filter_sublist.map _) }
  shut id _ := s.freeHost_queue ag id

/-! ### The transactions of E -/

/-- A part of a transaction of E leaves E as it is. -/
theorem State.Within.ready_e {s t : State} (h : s.Within t) : t.ready .e = s.ready .e := by
  simp only [State.ready, h.e]

/-- A stretch of a ready E keeps what a step keeps if what follows a part that is done does (00_scope.md R13, 41_bus.md R240). -/
theorem Res.Within.outcome_advances {α : Type} {s : State} {r : Res α} (h : r.Within s) (fr : Frame) {k : α → State → Out}
    (hr : s.ready .e = true) (hk : ∀ (a : α) (t : State), t.ready .e = true → t.AdvancesTo (k a t)) :
    s.AdvancesTo (r.outcome fr k) := by
  cases r with
  | done a t => exact (State.Within.advances h).then (hk a t (by rwa [State.Within.ready_e h]))
  | hold p t => exact ((State.Within.advances h).trans (.holdE (by rwa [State.Within.ready_e h]) (.queue p fr))).toNext
  | abort t => exact ((State.Within.advances h).trans (.abortE (by rwa [State.Within.ready_e h]))).toNext
  | fault f => exact s.advancesTo_fault f

theorem Res.Within.endE_advances {s : State} {r : Res Result} (h : r.Within s) (hr : s.ready .e = true) :
    s.AdvancesTo r.endE :=
  h.outcome_advances .bare hr fun x t _ => (State.Advances.reply t .e (.done x)).toNext

/-- An instruction does not count a run down to a count of 0 (45_debugger.md R434). -/
theorem modeAfter_ne_zero {m : DbgMode} (h : m ≠ .running (some 0)) : modeAfter m ≠ .running (some 0) := by
  match m with
  | .stopped | .running none => exact h
  | .running (some k) =>
    have hk : k ≠ 0 := fun e => h (by rw [e])
    rw [modeAfter]
    split
    · simp
    · simp; omega

/-- DBG_CONTINUE sets no count of 0 (45_debugger.md R433). -/
theorem contMode_ne_zero (n : Nat) : contMode n ≠ .running (some 0) := by
  rw [contMode]
  split <;> simp [*]

theorem State.Advances.dstepEnd (s : State) : s.Advances s.dstepEnd :=
  (State.Advances.reply s .e (.done .unit)).trans ((State.Advances.setMode modeAfter_ne_zero).trans (.reply _ .e (.done .unit)))

theorem coreExecOutcome_advances {s : State} {r : Res Unit} (h : r.Within s) (hr : s.ready .e = true) :
    s.AdvancesTo (coreExecOutcome r) :=
  h.outcome_advances .coreExec hr fun _ t _ => (State.Advances.dstepEnd t).toNext

/-- The core's instruction, from any of its bus transactions on (60_exceptions.md R546). -/
theorem coreTxns_advances (l : List BusTxn) {s : State} (hr : s.ready .e = true) : s.AdvancesTo (coreTxns l s) := by
  induction l generalizing s with
  | nil => exact (State.Advances.coreRetire s).then (coreExecOutcome_advances (execAll_within s.coreRetire) hr)
  | cons t ts ih =>
    exact (busTxn_within t s).outcome_advances (.coreTxns ts) hr fun x u hu => (State.Advances.reply u .e (.done x)).then (ih hu)

theorem dstepFromWait_advances {s : State} (hr : s.ready .e = true) : s.AdvancesTo (dstepFromWait s) := by
  unfold dstepFromWait
  split
  · exact (State.Advances.holdE hr .debugger).toNext
  · split
    · exact ((State.Advances.setMode (s := s) fun _ => by simp).trans (.reply _ .e (.done .unit))).toNext
    · exact coreTxns_advances _ hr

/-- What comes after the part that held (00_scope.md R13). -/
theorem frameOutcome_advances (fr : Frame) {s : State} {r : Res Result} (h : r.Within s) (hr : s.ready .e = true) :
    s.AdvancesTo (frameOutcome fr r) := by
  cases fr with
  | bare => exact h.endE_advances hr
  | coreTxns rest =>
    exact h.outcome_advances (.coreTxns rest) hr fun x t ht =>
      (State.Advances.reply t .e (.done x)).then (coreTxns_advances rest ht)
  | coreExec => exact coreExecOutcome_advances (h.map fun _ => ()) hr

theorem runHeld_advances (h : Held) {s : State} (hr : s.ready .e = true) : s.AdvancesTo (runHeld h s) := by
  cases h with
  | debugger => exact dstepFromWait_advances hr
  | queue p fr => exact frameOutcome_advances fr (runPoint_within p s) hr

/-- A transaction that the engine must be bound for (41_bus.md R239). -/
theorem State.AdvancesTo.ifBound {s : State} {o : Out} (h : s.AdvancesTo o) :
    s.AdvancesTo (if s.bus.bound then o else .fault .unboundCore) := by
  split
  · exact h
  · exact s.advancesTo_fault _

theorem execTerminate_advances (s : State) : s.AdvancesTo (execTerminate s) :=
  ((State.Within.terminateAll s).advances.trans (.reply s.terminateAll s.issuer (.done .unit))).toNext

/-- E issues bus accesses, EXEC, RESET, TERMINATE, DSTEP and BOOT (30_encoding.md R142). -/
theorem op_of_agentMayIssue_e {op : BitVec 4} (h : agentMayIssue .e op = true) :
    op = 0x0#4 ∨ op = 0x1#4 ∨ op = 0x2#4 ∨ op = 0x3#4 ∨ op = 0x4#4 ∨ op = 0xA#4 ∨ op = 0xB#4 := by
  simpa [agentMayIssue, or_assoc] using h

/-- Every transaction that a ready E may issue. -/
theorem exec_e_advances {code : Code} {operand : Nat} {i : Instr} (hd : decode code operand = .ok i)
    (hmay : agentMayIssue .e (fieldsOf code).op = true) {s : State} (hr : s.ready .e = true) : s.AdvancesTo (exec i s) := by
  have hop := decodeOp_of_decode hd
  rcases op_of_agentMayIssue_e hmay with h | h | h | h | h | h | h <;>
    simp only [decodeOp, h, BitVec.reduceEq, reduceIte, Except.ok.injEq] at hop <;> subst hop
  · rw [exec_decodeRead]
    exact ((busRead_within _ _ _ s).map Result.word).endE_advances hr
  · rw [exec_decodeWrite]
    exact ((busWrite_within _ _ _ s).map fun _ => Result.unit).endE_advances hr
  · exact (((execAll_within s).map fun _ => Result.unit).endE_advances hr).ifBound
  · exact ((State.Advances.resetAll s).trans (.reply s.resetAll .e (.done .unit))).toNext
  · exact execTerminate_advances s
  · exact (dstepFromWait_advances hr).ifBound
  · exact ((bootFromCount_within s).endE_advances hr).ifBound

/-! ### The transactions of the other agents -/

/-- All that a host's transaction can do: it ends, and its queue and the pending-RX count are all it has changed, or it holds
(47_host_streams.md R500, R506). -/
theorem hostRun_cases (ag : Agent) (op : HostOp) (s : State) :
    (∃ t r, s.Within t ∧ hostRun ag op s = .next (t.reply ag (.done r))) ∨ hostRun ag op s = .next (s.holdHost ag op) := by
  cases op with
  | push id v =>
    rcases hostRun_push_cases ag id v s with ⟨hopen, hl, h⟩ | ⟨-, -, h⟩ | ⟨-, h⟩
    · exact .inl ⟨_, _, (State.Within.setQueue s id _ hopen fun _ => by simpa using hl).trans (.afterHostPush _ id), h⟩
    · exact .inr h
    · exact .inl ⟨s, _, .refl s, h⟩
  | pop id =>
    rcases hostRun_pop_cases ag id s with ⟨w, ws, hq, h⟩ | ⟨-, h⟩ | ⟨-, h⟩
    · have room : (s.queue id).items.length ≤ Config.qcap → ws.length ≤ Config.qcap := fun hl =>
        (Nat.le_succ _).trans (by simpa [hq] using hl)
      exact .inl ⟨_, _, .setQueue s id _ (by rw [hq]) room, h⟩
    · exact .inr h
    · exact .inl ⟨s, _, .refl s, h⟩

theorem hostRun_advances {ag : Agent} (op : HostOp) {s : State} (hf : s.hostFree ag = true) :
    s.AdvancesTo (hostRun ag op s) := by
  rcases hostRun_cases ag op s with ⟨t, r, ht, h⟩ | h <;> rw [h]
  · exact (ht.advances.trans (.reply t ag _)).toNext
  · exact (State.Advances.holdHost hf op).toNext

theorem hostNoChannel_advances (s : State) : s.AdvancesTo (hostNoChannel s) :=
  (State.Advances.reply s s.issuer (.done .endOfStream)).toNext

/-- An agent other than E is ready when it is held in nothing (00_scope.md R13). -/
theorem State.ready_of_ne_e {ag : Agent} (hag : ag ≠ .e) (s : State) : s.ready ag = s.hostFree ag := by
  cases ag with
  | e => exact absurd rfl hag
  | _ => rfl

/-- Every transaction that a ready agent other than E may issue. -/
theorem exec_other_advances {code : Code} {operand : Nat} {i : Instr} (hd : decode code operand = .ok i) {s : State}
    (hag : s.issuer ≠ .e) (hmay : agentMayIssue s.issuer (fieldsOf code).op = true) (hr : s.ready s.issuer = true) :
    s.AdvancesTo (exec i s) := by
  have hop := decodeOp_of_decode hd
  have hf : s.hostFree s.issuer = true := by rwa [← State.ready_of_ne_e hag]
  rcases op_of_agentMayIssue hag hmay with h | h | h | h | h | h <;>
    simp only [decodeOp, h, BitVec.reduceEq, reduceIte, Except.ok.injEq] at hop
  · subst hop
    exact execTerminate_advances s
  · rcases exec_decodePush hop with ⟨id, hx⟩ | hx <;> rw [hx]
    · exact hostRun_advances _ hf
    · exact hostNoChannel_advances s
  · rcases exec_decodePop hop with ⟨id, hx⟩ | hx <;> rw [hx]
    · exact hostRun_advances _ hf
    · exact hostNoChannel_advances s
  · subst hop
    exact ((State.Advances.setBps (bpInsert_wf _ _)).trans (.reply _ s.issuer (.done .unit))).toNext
  · subst hop
    exact ((State.Advances.setBps (bpErase_wf _ _)).trans (.reply _ s.issuer (.done .unit))).toNext
  · subst hop
    exact ((State.Advances.setMode fun _ => contMode_ne_zero _).trans (.reply _ s.issuer (.done .unit))).toNext

/-! ### Every step -/

/-- Whoever resumes is first held no more, and then goes on as a ready agent (42_queue.md R277). -/
theorem resume_advances (ag : Agent) (s : State) : s.AdvancesTo (resume ag s) := by
  unfold resume
  split
  · split
    next hlive _ => exact (State.Advances.freeE s).then (runHeld_advances _ (s.freeE.ready_e_iff.2 ⟨hlive, rfl⟩))
    next => exact (State.Advances.refl s).toNext
  · split
    · exact (State.Advances.freeHost s ag).then (hostRun_advances _ (s.hostFree_freeHost ag))
    · exact (State.Advances.refl s).toNext

/-- A ready agent's transaction that is its to issue (30_encoding.md R142). -/
theorem exec_advances {code : Code} {operand : Nat} {i : Instr} (hd : decode code operand = .ok i) {s : State}
    (hmay : agentMayIssue s.issuer (fieldsOf code).op = true) (hr : s.ready s.issuer = true) : s.AdvancesTo (exec i s) := by
  by_cases hag : s.issuer = .e
  · rw [hag] at hmay hr
    exact exec_e_advances hd hmay hr
  · exact exec_other_advances hd hag hmay hr

/-- Every step keeps the invariant and leaves the shut queues as they are. -/
theorem step_advances (s : State) : s.AdvancesTo (step s) := by
  intro t h
  cases hs : s.sched with
  | nil =>
    rw [step_nil hs] at h
    exact (State.Advances.refl s).toNext t h
  | cons entry rest =>
    have skip : s.Advances { s with sched := rest } := .records s rest s.issuer s.core s.replies
    cases entry with
    | issue ag code operand =>
      rcases step_issue_next hs h with rfl | ⟨i, hd, hmay, hx⟩
      · exact skip
      · cases hr : s.ready ag with
        | false =>
          rw [step_issue_passedOver hs hd hmay hr] at h
          exact skip.toNext t h
        | true =>
          have hr' : ({ s with sched := rest, issuer := ag } : State).ready ag = true := by cases ag <;> exact hr
          exact (State.Advances.records s rest ag s.core s.replies).then (exec_advances hd hmay hr') t hx
    | resume ag =>
      rw [step_resume hs] at h
      exact skip.then (resume_advances ag _) t h
    | core v =>
      rw [step_core hs] at h
      exact (State.Advances.records s rest s.issuer v s.replies).toNext t h

/-- Settles O58: a part of a transaction of E keeps what the invariant asks of the engine, a ready agent comes to be held at most once,
and the debugger's transactions keep its mode and its set. -/
theorem stepKeepsInv : Obligations.StepKeepsInv :=
  fun s t hi h => (step_advances s t h).inv hi

/-- Settles O44: the primitives fail by their first test, and no part of a step changes a shut queue. -/
theorem shutdownIsPermanent : Obligations.ShutdownIsPermanent :=
  ⟨fun _ v => ⟨Queue.push_shut _ v rfl, Queue.pop_shut _ rfl, Queue.tryPop_shut _ rfl⟩,
    fun s t id h => (step_advances s t h).shut id⟩

end Sys2Proof.Machine

/-! PROOFS. The ESAI (43_esai.md): what an access of its registers, and of the other registers that only store, does; what an EXEC
does with the ESAI's tick, through to its end or up to where it stops; and what a run of EXECs adds up to. -/

namespace Sys2Proof.Machine

open Sys2Proof.Claims

/-! ### Accesses of a register through the bus (41_bus.md R232, R234) -/

/-- A read of a register whose read rule ends is done with the rule's word. -/
theorem execBusRead_done {s t : State} {r : Reg} {k : Kind} {w : Word} (hm : s.Mapped) (h : readReg r k s = .done w t) :
    execBusRead (regAddr r).1 (regAddr r).2 k s = doneWord w t := by
  rw [execBusRead, busRead_mapped hm (regAt_regAddr r), h]
  rfl

/-- A write of a register whose write rule, given the truncated data, ends is done. -/
theorem execBusWrite_done {s t : State} {r : Reg} {v : Nat} (hm : s.Mapped)
    (h : writeReg r (BitVec.ofNat 24 v) s = .done () t) :
    execBusWrite (regAddr r).1 (regAddr r).2 v s = doneUnit t := by
  have hw : writeReg r (trunc24 v) s = .done () t := h
  rw [execBusWrite, busWrite_mapped hm (regAt_regAddr r), hw]
  rfl

/-- Settles O8: each read rule answers the stored word and leaves the state. -/
theorem storageRegistersRead : Obligations.StorageRegistersRead := by
  intro s k hm
  exact ⟨execBusRead_done (r := .tcr) hm rfl, execBusRead_done (r := .rcr) hm rfl,
    execBusRead_done (r := .saicr) hm rfl, execBusRead_done (r := .tccr) hm rfl,
    execBusRead_done (r := .rccr) hm rfl, execBusRead_done (r := .hckr) hm rfl,
    execBusRead_done (r := .hsar) hm rfl, execBusRead_done (r := .embc) hm rfl⟩

/-- Settles O9: each write rule stores the truncated word in its own field. -/
theorem storageRegistersWrite : Obligations.StorageRegistersWrite := by
  intro s v hm
  exact ⟨execBusWrite_done (r := .tcr) hm rfl, execBusWrite_done (r := .rcr) hm rfl,
    execBusWrite_done (r := .saicr) hm rfl, execBusWrite_done (r := .tccr) hm rfl,
    execBusWrite_done (r := .rccr) hm rfl, execBusWrite_done (r := .hckr) hm rfl,
    execBusWrite_done (r := .hsar) hm rfl, execBusWrite_done (r := .embc) hm rfl⟩

/-- Settles O10: the read rules of PCTL, HTX and the TX registers answer 0 and log; the write rule of PCTL leaves the state. -/
theorem writeOnlyRegistersReadZero : Obligations.WriteOnlyRegistersReadZero := by
  intro s k v hm
  exact ⟨execBusWrite_done (r := .pctl) hm rfl, execBusRead_done (r := .pctl) hm rfl, execBusRead_done (r := .htx) hm rfl,
    execBusRead_done (r := .tx 0) hm rfl, execBusRead_done (r := .tx 1) hm rfl, execBusRead_done (r := .tx 2) hm rfl,
    execBusRead_done (r := .tx 3) hm rfl, execBusRead_done (r := .tx 4) hm rfl, execBusRead_done (r := .tx 5) hm rfl⟩

/-- Settles O11: the write rules of CHIDR, SAISR and the RX registers only log. -/
theorem readOnlyRegistersIgnoreWrites : Obligations.ReadOnlyRegistersIgnoreWrites := by
  intro s v hm
  exact ⟨execBusWrite_done (r := .chidr) hm rfl, execBusWrite_done (r := .saisr) hm rfl,
    execBusWrite_done (r := .rx 0) hm rfl, execBusWrite_done (r := .rx 1) hm rfl,
    execBusWrite_done (r := .rx 2) hm rfl, execBusWrite_done (r := .rx 3) hm rfl⟩

/-- SAISR as it is read is its three flags at bits 13, 14 and 15 (43_esai.md R334). -/
theorem EsaiState.saisr_toNat (es : EsaiState) :
    es.saisr.toNat = es.tfs.toNat * 2 ^ 13 + es.tue.toNat * 2 ^ 14 + es.tde.toNat * 2 ^ 15 := by
  have flags : ∀ a b c : Bool, (flagAt bitTFS a ||| flagAt bitTUE b ||| flagAt bitTDE c).toNat =
      a.toNat * 2 ^ 13 + b.toNat * 2 ^ 14 + c.toNat * 2 ^ 15 := by decide
  exact flags es.tfs es.tue es.tde

/-- Settles O15: the read rule sets the status-read flag, and `EsaiState.saisr_toNat` says what word it answers. -/
theorem saisrReadSetsStatusRead : Obligations.SaisrReadSetsStatusRead :=
  fun s _ hm => ⟨s.esai.saisr, execBusRead_done (r := .saisr) hm rfl, s.esai.saisr_toNat⟩

/-- A read of RXc answers as the channel's enable bit says (43_esai.md R332). -/
theorem execBusRead_rx {s : State} (hm : s.Mapped) (c : Fin 4) (k : Kind) :
    execBusRead (regAddr (.rx c)).1 (regAddr (.rx c)).2 k s = rxRead c s := by
  rw [execBusRead_done (r := .rx c) hm rfl, State.rxWord, State.rxState, EsaiState.reTest_eq, rxRead]
  cases s.esai.rcr.getLsbD c.val <;> rfl

/-- Settles O16: the four channels of `execBusRead_rx`. -/
theorem rxReadIsGated : Obligations.RxReadIsGated :=
  fun _ k hm => ⟨execBusRead_rx hm 0 k, execBusRead_rx hm 1 k, execBusRead_rx hm 2 k, execBusRead_rx hm 3 k⟩

/-- The word accepted and the completion test after it, in bits (43_esai.md R330). -/
theorem State.txComplete_txAccept (c : Fin 6) (v : Word) (s : State) :
    (s.txAccept c v).txComplete = { s with esai := { s.esai with
      txw := s.esai.txw.set c v
      wmask := s.esai.wmask ||| 1#6 <<< c.val
      tue := if complete s (s.esai.wmask ||| 1#6 <<< c.val) ∧ s.esai.stRead = true then false else s.esai.tue
      tde := if complete s (s.esai.wmask ||| 1#6 <<< c.val) then false else s.esai.tde } } := by
  have hall : (s.txAccept c v).esai.allWritten = complete s (s.esai.wmask ||| 1#6 <<< c.val) := EsaiState.allWritten_eq _
  rw [State.txComplete, hall]
  cases complete s (s.esai.wmask ||| 1#6 <<< c.val) with
  | false => simp [State.txAccept]
  | true => cases hr : s.esai.stRead <;> simp [State.txAccept, hr]

/-- The write rule of TXc ends in `txWritten` (43_esai.md R330). -/
theorem writeTxReg_eq (c : Fin 6) (v : Nat) (s : State) : writeTxReg c (BitVec.ofNat 24 v) s = .done () (txWritten c v s) := by
  rw [writeTxReg, EsaiState.teTest_eq, State.txComplete_txAccept, txWritten]
  cases s.esai.tcr.getLsbD c.val <;> rfl

/-- Settles O17: the six channels of `writeTxReg_eq`. -/
theorem txWriteCompletesTheSet : Obligations.TxWriteCompletesTheSet := by
  intro s v hm
  have done (c : Fin 6) : execBusWrite (regAddr (.tx c)).1 (regAddr (.tx c)).2 v s = doneUnit (txWritten c v s) :=
    execBusWrite_done hm (writeTxReg_eq c v s)
  exact ⟨done 0, done 1, done 2, done 3, done 4, done 5⟩

/-! ### The ESAI's tick, from its first step on (43_esai.md R310) -/

/-- Step 2 of the tick in numbers (43_esai.md R310, R312). -/
theorem State.esaiAccumulate_eq (s : State) : s.esaiAccumulate = { s with esai := { s.esai with
    acc := s.esai.acc + elapsedNow s
    snap := s.core.counter % 2 ^ s.cfg.cycW } } := by
  rw [State.esaiAccumulate, elapsed_counter]
  rfl

/-- The state of a transfer tick before its first push: the cycles are counted and CPS is taken off (43_esai.md R310, R313). -/
def State.tickStarted (s : State) : State :=
  { s with esai := { s.esai with
      acc := s.esai.acc + elapsedNow s - s.cfg.cps
      snap := s.core.counter % 2 ^ s.cfg.cycW } }

/-- The channel's bit makes the set of enabled output channels not empty (10_state.md R39). -/
theorem te_ne_zero_of_enabled {s : State} {c : Fin 6} (h : s.esai.tcr.getLsbD c.val = true) : te s ≠ 0#6 := by
  intro hz
  have hbit : (te s).getLsbD c.val = s.esai.tcr.getLsbD c.val := by simp [te]
  rw [hz, h] at hbit
  simp at hbit

/-- Below the period the ESAI counts the elapsed cycles and does no more (43_esai.md R310 step 3). -/
theorem esaiExec_below {s : State} (rest : List Periph) (hte : te s ≠ 0#6) (hlt : s.esai.acc + elapsedNow s < s.cfg.cps) :
    esaiExec rest s = .done () { s with esai := { s.esai with
      acc := s.esai.acc + elapsedNow s
      snap := s.core.counter % 2 ^ s.cfg.cycW } } := by
  rw [esaiExec, if_neg (mt s.esai.te_eq_zero.1 hte), State.esaiAccumulate_eq, if_pos hlt]

/-- At the period the ESAI goes through its outputs and then does the rest of its tick (43_esai.md R310 step 4). -/
theorem esaiExec_reached {s : State} (rest : List Periph) (hte : te s ≠ 0#6) (hge : s.cfg.cps ≤ s.esai.acc + elapsedNow s) :
    esaiExec rest s = (esaiOutputs rest outChannels s.tickStarted).bind fun _ t => esaiTail t := by
  rw [esaiExec, if_neg (mt s.esai.te_eq_zero.1 hte), State.esaiAccumulate_eq, if_neg (Nat.not_lt.2 hge)]
  rfl

/-- The input channels below one. -/
theorem mem_inChannels_below : ∀ c d : Fin 4, d ∈ inChannels.filter (fun d => decide (d < c)) ↔ d < c := by decide

/-- The output queues after the enabled channels below one have been pushed to (43_esai.md R314). -/
theorem outqAfter_below (c : Fin 6) (es : EsaiState) (d : Fin 6) :
    outqAfter (outChannels.filter fun d => decide (d < c)) es d =
      if d < c ∧ es.tcr.getLsbD d.val = true then { items := es.outq[d].items ++ [es.txw[d]], shut := false }
      else es.outq[d] := by
  have hmem : ∀ c d : Fin 6, d ∈ outChannels.filter (fun d => decide (d < c)) ↔ d < c := by decide
  simp only [outqAfter, hmem]

/-- The input queues after the enabled channels below one have been captured from (43_esai.md R315). -/
theorem inqAfter_below (c : Fin 4) (es : EsaiState) (d : Fin 4) :
    inqAfter (inChannels.filter fun d => decide (d < c)) es d =
      if d < c ∧ es.rcr.getLsbD d.val = true then { items := es.inq[d].items.tail, shut := false } else es.inq[d] := by
  simp only [inqAfter, mem_inChannels_below]

/-- The receive words after the enabled channels below one have been captured from (43_esai.md R315). -/
theorem rxwAfter_below (c : Fin 4) (es : EsaiState) (d : Fin 4) :
    rxwAfter (inChannels.filter fun d => decide (d < c)) es d =
      if d < c ∧ es.rcr.getLsbD d.val = true then es.inq[d].items.headD 0 else es.rxw[d] := by
  simp only [rxwAfter, mem_inChannels_below]

/-- Step 4a goes through where the enabled queues are open and have room (43_esai.md R314). -/
theorem esaiOutputs_ready {s : State} (rest : List Periph) (ho : s.OutputsReady) :
    ∃ oq : Vector Queue 6,
      esaiOutputs rest outChannels s.tickStarted =
        .done () { s.tickStarted with esai := { s.tickStarted.esai with outq := oq } } ∧
      ∀ d : Fin 6, oq[d] = if s.esai.tcr.getLsbD d.val then
        { items := s.esai.outq[d].items ++ [s.esai.txw[d]], shut := false } else s.esai.outq[d] := by
  obtain ⟨oq, hrun, hoq⟩ := esaiOutputs_done rest outChannels (by decide) s.tickStarted fun d _ => ho d
  have hmem : ∀ d, d ∈ outChannels := by decide
  exact ⟨oq, hrun, fun d => by rw [hoq d]; simp only [outqAfter, hmem, true_and]; rfl⟩

/-- The ESAI after a transfer tick, with the queues and the receive words of its steps 4a and 4b (43_esai.md R310). -/
def State.esaiTicked (outq : Vector Queue 6) (inq : Vector Queue 4) (rxw : Vector Word 4) (s : State) : EsaiState :=
  { s.esai with
    outq := outq
    inq := inq
    rxw := rxw
    acc := s.esai.acc + elapsedNow s - s.cfg.cps
    snap := s.core.counter % 2 ^ s.cfg.cycW
    tfs := !s.esai.tfs
    tue := true
    tde := true
    wmask := 0#6
    stRead := false }

/-- The transfer tick goes through where the enabled outputs have room and the enabled inputs are open (43_esai.md R310). -/
theorem esaiExec_tick {s : State} (rest : List Periph) (hte : te s ≠ 0#6) (hge : s.cfg.cps ≤ s.esai.acc + elapsedNow s)
    (ho : s.OutputsReady) (hi : s.InputsOpen) :
    ∃ (oq : Vector Queue 6) (iq : Vector Queue 4) (rx : Vector Word 4),
      esaiExec rest s = .done () { s with esai := s.esaiTicked oq iq rx, hist := s.hist ++ esaiRequests s } ∧
      (∀ d : Fin 6, oq[d] = if s.esai.tcr.getLsbD d.val then
        { items := s.esai.outq[d].items ++ [s.esai.txw[d]], shut := false } else s.esai.outq[d]) ∧
      (∀ d : Fin 4, iq[d] = if s.esai.rcr.getLsbD d.val then
        { items := s.esai.inq[d].items.tail, shut := false } else s.esai.inq[d]) ∧
      (∀ d : Fin 4, rx[d] = if s.esai.rcr.getLsbD d.val then s.esai.inq[d].items.headD 0 else s.esai.rxw[d]) := by
  obtain ⟨oq, hout, hoq⟩ := esaiOutputs_ready rest ho
  obtain ⟨iq, rx, htail, hiq, hrx⟩ :=
    esaiTail_done { s.tickStarted with esai := { s.tickStarted.esai with outq := oq } } hi
  refine ⟨oq, iq, rx, ?_, hoq, hiq, hrx⟩
  rw [esaiExec_reached rest hte hge, hout, Res.bind_done, htail, List.append_assoc]
  rfl

/-- The transfer tick comes to a stop at output channel `c`: that is enabled with a shut or full queue, and the lower enabled
channels have open queues with room (43_esai.md R314). -/
def State.StopsAtOutput (c : Fin 6) (s : State) : Prop :=
  s.esai.tcr.getLsbD c.val = true ∧ (s.esai.outq[c].shut = true ∨ 8192 ≤ s.esai.outq[c].items.length) ∧
    ∀ d : Fin 6, d < c → s.esai.tcr.getLsbD d.val = true → s.esai.outq[d].shut = false ∧ s.esai.outq[d].items.length < 8192

/-- The transfer tick comes to a stop at input channel `c`: that is enabled with a shut queue, and the lower enabled channels have
open ones (43_esai.md R315). -/
def State.StopsAtInput (c : Fin 4) (s : State) : Prop :=
  s.esai.rcr.getLsbD c.val = true ∧ s.esai.inq[c].shut = true ∧
    ∀ d : Fin 4, d < c → s.esai.rcr.getLsbD d.val = true → s.esai.inq[d].shut = false

/-- A tick that stops at an output has pushed to the lower channels (43_esai.md R314, 41_bus.md R240). -/
theorem esaiExec_stopsAtOutput {s : State} {c : Fin 6} (rest : List Periph) (hge : s.cfg.cps ≤ s.esai.acc + elapsedNow s)
    (hstop : s.StopsAtOutput c) :
    ∃ oq : Vector Queue 6,
      esaiExec rest s = (if s.esai.outq[c].shut
        then .abort { s.tickStarted with esai := { s.tickStarted.esai with outq := oq } }
        else .hold (.esaiOut c rest) { s.tickStarted with esai := { s.tickStarted.esai with outq := oq } }) ∧
      ∀ d : Fin 6, oq[d] = if d < c ∧ s.esai.tcr.getLsbD d.val = true then
        { items := s.esai.outq[d].items ++ [s.esai.txw[d]], shut := false } else s.esai.outq[d] := by
  obtain ⟨hc, hfull, hlower⟩ := hstop
  obtain ⟨oq, hoq, hout⟩ := esaiOutputs_stops rest s.tickStarted c hc hlower hfull
  refine ⟨oq, ?_, fun d => (hoq d).trans (outqAfter_below c _ d)⟩
  rw [esaiExec_reached rest (te_ne_zero_of_enabled hc) hge, hout]
  show Res.bind (if s.esai.outq[c].shut = true then _ else _) _ = _
  cases s.esai.outq[c].shut <;> rfl

/-- A tick that stops at an input has pushed to every enabled output and captured from the lower inputs (43_esai.md R315,
41_bus.md R240). -/
theorem esaiExec_stopsAtInput {s : State} {c : Fin 4} (rest : List Periph) (hte : te s ≠ 0#6)
    (hge : s.cfg.cps ≤ s.esai.acc + elapsedNow s) (ho : s.OutputsReady) (hstop : s.StopsAtInput c) :
    ∃ (oq : Vector Queue 6) (iq : Vector Queue 4) (rx : Vector Word 4),
      esaiExec rest s = .abort { s.tickStarted with esai := { s.tickStarted.esai with outq := oq, inq := iq, rxw := rx } } ∧
      (∀ d : Fin 6, oq[d] = if s.esai.tcr.getLsbD d.val then
        { items := s.esai.outq[d].items ++ [s.esai.txw[d]], shut := false } else s.esai.outq[d]) ∧
      (∀ d : Fin 4, iq[d] = if d < c ∧ s.esai.rcr.getLsbD d.val = true then
        { items := s.esai.inq[d].items.tail, shut := false } else s.esai.inq[d]) ∧
      (∀ d : Fin 4, rx[d] = if d < c ∧ s.esai.rcr.getLsbD d.val = true then s.esai.inq[d].items.headD 0
        else s.esai.rxw[d]) := by
  obtain ⟨hc, hshut, hlower⟩ := hstop
  obtain ⟨oq, hout, hoq⟩ := esaiOutputs_ready rest ho
  obtain ⟨iq, rx, hin, hiq, hrx⟩ := esaiInputs_stops
    { s.tickStarted with esai := { s.tickStarted.esai with outq := oq } } c hc hshut hlower
  refine ⟨oq, iq, rx, ?_, hoq, fun d => (hiq d).trans (inqAfter_below c _ d), fun d => (hrx d).trans (rxwAfter_below c _ d)⟩
  rw [esaiExec_reached rest hte hge, hout, Res.bind_done, esaiTail, hin]
  rfl

/-! ### EXEC around the ESAI's tick (41_bus.md R236, R240) -/

/-- The state in which the ESAI's `exec()` runs in an EXEC: the SHI has had its tick if it is registered before the ESAI. -/
def State.atEsai (s : State) : State :=
  { s with
    shi := if shiFirst s.cfg.order then shiTicked s else s.shi
    hist := s.hist ++ if shiFirst s.cfg.order then shiRequests s else [] }

/-- EXEC of a bound engine is the ESAI's `exec()`, and the SHI's tick before or after it. -/
theorem exec_exec_eq {s : State} (hb : s.bus.bound = true) :
    exec .exec s = (((esaiExec (afterEsai s.cfg.order) s.atEsai).bind
      fun _ t => .done () (if shiFirst s.cfg.order then t else t.shiExec)).map fun _ => Result.unit).endE := by
  have hat : (if shiFirst s.cfg.order then s.shiExec else s) = s.atEsai := by
    rw [State.shiExec_eq, State.atEsai]
    cases shiFirst s.cfg.order <;> simp
  rw [exec_exec_of_bound hb, execAll_eq, hat]

/-- An EXEC whose ESAI part ends is done: the SHI has its one tick, and the requests stand in registration order. -/
theorem exec_exec_done {s : State} {es : EsaiState} {evs : List Event} (hb : s.bus.bound = true)
    (h : esaiExec (afterEsai s.cfg.order) s.atEsai = .done () { s.atEsai with esai := es, hist := s.atEsai.hist ++ evs }) :
    exec .exec s = doneUnit { s with
      shi := shiTicked s
      esai := es
      hist := s.hist ++ if shiFirst s.cfg.order then shiRequests s ++ evs else evs ++ shiRequests s } := by
  rw [exec_exec_eq hb, h, Res.bind_done, Res.map_done, Res.endE_done, State.shiExec_eq, State.atEsai]
  cases shiFirst s.cfg.order with
  | true => simp [doneUnit, State.doneE]
  | false =>
    simp only [Bool.false_eq_true, if_false, List.append_nil, List.append_assoc]
    rfl

/-- An EXEC whose ESAI part aborts ends in an abort there. -/
theorem exec_exec_abort {s t : State} (hb : s.bus.bound = true) (h : esaiExec (afterEsai s.cfg.order) s.atEsai = .abort t) :
    exec .exec s = .next t.abortE := by
  rw [exec_exec_eq hb, h]
  rfl

/-- An EXEC whose ESAI part holds is held there. -/
theorem exec_exec_hold {s t : State} {p : HoldPoint} (hb : s.bus.bound = true)
    (h : esaiExec (afterEsai s.cfg.order) s.atEsai = .hold p t) : exec .exec s = .next (t.holdE (.queue p .bare)) := by
  rw [exec_exec_eq hb, h]
  rfl

/-- Settles O29: the ESAI part is `esaiExec_below`, with no request of its own. -/
theorem execBelowPeriodOnlyAccumulates : Obligations.ExecBelowPeriodOnlyAccumulates := by
  intro s hb hte hlt
  have hesai : esaiExec (afterEsai s.cfg.order) s.atEsai = .done () { s.atEsai with
      esai := { s.esai with acc := s.esai.acc + elapsedNow s, snap := s.core.counter % 2 ^ s.cfg.cycW }
      hist := s.atEsai.hist ++ [] } := by
    rw [List.append_nil]
    exact esaiExec_below (s := s.atEsai) _ hte hlt
  simpa using exec_exec_done hb hesai

/-- Settles O30: the ESAI part is `esaiExec_tick`. -/
theorem execTransferTick : Obligations.ExecTransferTick := by
  intro s hb hte hge ho hi
  obtain ⟨oq, iq, rx, hesai, hoq, hiq, hrx⟩ := esaiExec_tick (s := s.atEsai) (afterEsai s.cfg.order) hte hge ho hi
  exact ⟨_, exec_exec_done (evs := esaiRequests s) hb hesai, hoq, hiq, hrx, rfl, rfl, rfl⟩

/-- Settles O31: the ESAI part is `esaiExec_stopsAtOutput`, and what stops it decides between the abort and the hold. -/
theorem execHoldsOrAbortsAtOutput : Obligations.ExecHoldsOrAbortsAtOutput := by
  intro s c hb hge hc hlower hfull
  obtain ⟨oq, hesai, hoq⟩ := esaiExec_stopsAtOutput (s := s.atEsai) (afterEsai s.cfg.order) hge ⟨hc, hfull, hlower⟩
  cases hs : s.esai.outq[c].shut with
  | true =>
    rw [show s.atEsai.esai.outq[c].shut = true from hs, if_pos rfl] at hesai
    exact ⟨_, exec_exec_abort hb hesai, nofun, fun _ => ⟨rfl, rfl⟩, hoq, rfl, rfl, rfl, rfl⟩
  | false =>
    rw [show s.atEsai.esai.outq[c].shut = false from hs, if_neg Bool.false_ne_true] at hesai
    exact ⟨_, exec_exec_hold hb hesai, fun _ => ⟨rfl, rfl⟩, nofun, hoq, rfl, rfl, rfl, rfl⟩

/-- Settles O32: the ESAI part is `esaiExec_stopsAtInput`. -/
theorem execAbortsAtShutInput : Obligations.ExecAbortsAtShutInput := by
  intro s c hb hte hge ho hc hshut hlower
  obtain ⟨oq, iq, rx, hesai, hoq, hiq, hrx⟩ :=
    esaiExec_stopsAtInput (s := s.atEsai) (afterEsai s.cfg.order) hte hge ho ⟨hc, hshut, hlower⟩
  exact ⟨_, exec_exec_abort hb hesai, rfl, rfl, hoq, hiq, hrx, rfl, rfl, rfl, rfl⟩

/-! ### Every way an EXEC can go (43_esai.md R310, R314, R315) -/

/-- The lowest channel at which a condition fails, if it fails at one. -/
theorem forall_or_lowest_not {n : Nat} (p : Fin n → Prop) : (∀ c, p c) ∨ ∃ c, ¬ p c ∧ ∀ d, d < c → p d := by
  by_cases h : ∀ c, p c
  · exact .inl h
  · obtain ⟨c, hc, hmin⟩ := wellFounded_lt.has_min {c | ¬ p c} (not_forall.1 h)
    exact .inr ⟨c, hc, fun d hd => by_contra fun hp => hmin d hp hd⟩

/-- The ways an EXEC of a bound engine can go: no output channel is enabled, the accumulator stays below CPS, the transfer tick goes
through, or it stops at an output or at an input. -/
inductive State.ExecWay (s : State) : Prop
  | idle (hte : te s = 0#6)
  | below (hte : te s ≠ 0#6) (hlt : s.esai.acc + elapsedNow s < s.cfg.cps)
  | tick (hte : te s ≠ 0#6) (hge : s.cfg.cps ≤ s.esai.acc + elapsedNow s) (ho : s.OutputsReady) (hi : s.InputsOpen)
  | stopsAtOutput (c : Fin 6) (hge : s.cfg.cps ≤ s.esai.acc + elapsedNow s) (hstop : s.StopsAtOutput c)
  | stopsAtInput (c : Fin 4) (hte : te s ≠ 0#6) (hge : s.cfg.cps ≤ s.esai.acc + elapsedNow s) (ho : s.OutputsReady)
      (hstop : s.StopsAtInput c)

/-- An output queue that is not ready stops the tick (42_queue.md R271). -/
theorem State.outputsReady_or_stopsAtOutput (s : State) : s.OutputsReady ∨ ∃ c, s.StopsAtOutput c := by
  refine (forall_or_lowest_not _).imp_right ?_
  rintro ⟨c, hc, hlower⟩
  obtain ⟨hen, hfull⟩ := Classical.not_imp.1 hc
  refine ⟨c, hen, ?_, hlower⟩
  rw [not_and_or, Bool.not_eq_false, Nat.not_lt] at hfull
  exact hfull

/-- An input queue that is not open stops the tick (42_queue.md R275). -/
theorem State.inputsOpen_or_stopsAtInput (s : State) : s.InputsOpen ∨ ∃ c, s.StopsAtInput c := by
  refine (forall_or_lowest_not _).imp_right ?_
  rintro ⟨c, hc, hlower⟩
  obtain ⟨hen, hshut⟩ := Classical.not_imp.1 hc
  exact ⟨c, hen, Bool.eq_true_of_not_eq_false hshut, hlower⟩

/-- There is no further way. -/
theorem State.execWay (s : State) : s.ExecWay := by
  by_cases hte : te s = 0#6
  · exact .idle hte
  · rcases Nat.lt_or_ge (s.esai.acc + elapsedNow s) s.cfg.cps with hlt | hge
    · exact .below hte hlt
    · rcases s.outputsReady_or_stopsAtOutput with ho | ⟨c, hstop⟩
      · rcases s.inputsOpen_or_stopsAtInput with hi | ⟨c, hstop⟩
        · exact .tick hte hge ho hi
        · exact .stopsAtInput c hte hge ho hstop
      · exact .stopsAtOutput c hge hstop

/-- An EXEC with a next state is one of a bound engine (41_bus.md R239). -/
theorem bound_of_exec_exec {s t : State} (h : exec .exec s = .next t) : s.bus.bound = true := by
  by_contra hb
  have hf : exec .exec s = .fault .unboundCore := if_neg hb
  rw [hf] at h
  cases h

/-- An EXEC that stops at an output does not end: E is held or Aborted (43_esai.md R314). -/
theorem e_ne_of_stopsAtOutput {s t : State} {c : Fin 6} (hb : s.bus.bound = true)
    (he : s.e = { status := .live, held := none }) (hge : s.cfg.cps ≤ s.esai.acc + elapsedNow s) (hstop : s.StopsAtOutput c)
    (h : exec .exec s = .next t) : t.e ≠ s.e := by
  obtain ⟨hc, hfull, hlower⟩ := hstop
  obtain ⟨u, hu, hhold, habort, -⟩ := execHoldsOrAbortsAtOutput s c hb hge hc hlower hfull
  obtain rfl := Host.Outcome.next.inj (hu.symm.trans h)
  cases hshut : s.esai.outq[c].shut with
  | false => simp [(hhold hshut).1, he]
  | true => simp [(habort hshut).1, he]

/-- An EXEC that stops at an input does not end: E is Aborted (43_esai.md R315). -/
theorem e_ne_of_stopsAtInput {s t : State} {c : Fin 4} (hb : s.bus.bound = true)
    (he : s.e = { status := .live, held := none }) (hte : te s ≠ 0#6) (hge : s.cfg.cps ≤ s.esai.acc + elapsedNow s)
    (ho : s.OutputsReady) (hstop : s.StopsAtInput c) (h : exec .exec s = .next t) : t.e ≠ s.e := by
  obtain ⟨hc, hshut, hlower⟩ := hstop
  obtain ⟨u, hu, habort, -⟩ := execAbortsAtShutInput s c hb hte hge ho hc hshut hlower
  obtain rfl := Host.Outcome.next.inj (hu.symm.trans h)
  simp [habort, he]

/-! ### A disabled output channel (43_esai.md R346) -/

/-- A write to a disabled channel is done and only logs (43_esai.md R330). -/
theorem execBusWrite_tx_disabled {s : State} {c : Fin 6} (hm : s.Mapped) (hc : s.esai.tcr.getLsbD c.val = false) (v : Nat) :
    execBusWrite (regAddr (.tx c)).1 (regAddr (.tx c)).2 v s = doneUnit (logged (.disabledChannel (.tx c)) s) := by
  rw [execBusWrite_done (r := .tx c) hm (writeTxReg_eq c v s), txWritten, hc, if_neg Bool.false_ne_true]

/-- No EXEC touches the queue or the word of a disabled output channel, whichever way it goes. -/
theorem exec_exec_disabled {s t : State} {c : Fin 6} (hc : s.esai.tcr.getLsbD c.val = false) (h : exec .exec s = .next t) :
    t.esai.outq[c] = s.esai.outq[c] ∧ t.esai.txw[c] = s.esai.txw[c] := by
  have hb := bound_of_exec_exec h
  cases s.execWay with
  | idle hte =>
    obtain rfl := Host.Outcome.next.inj ((execDeliversShi s hb hte).symm.trans h)
    exact ⟨rfl, rfl⟩
  | below hte hlt =>
    obtain rfl := Host.Outcome.next.inj ((execBelowPeriodOnlyAccumulates s hb hte hlt).symm.trans h)
    exact ⟨rfl, rfl⟩
  | tick hte hge ho hi =>
    obtain ⟨u, hu, hoq, -, -, hesai, -, -⟩ := execTransferTick s hb hte hge ho hi
    obtain rfl := Host.Outcome.next.inj (hu.symm.trans h)
    refine ⟨?_, by rw [State.reply_esai, hesai]⟩
    rw [State.reply_esai, hoq c, hc, if_neg Bool.false_ne_true]
  | stopsAtOutput d hge hstop =>
    obtain ⟨hd, hfull, hlower⟩ := hstop
    obtain ⟨u, hu, -, -, hoq, hesai, -, -, -⟩ := execHoldsOrAbortsAtOutput s d hb hge hd hlower hfull
    obtain rfl := Host.Outcome.next.inj (hu.symm.trans h)
    exact ⟨by rw [hoq c, hc]; simp, by rw [hesai]⟩
  | stopsAtInput d hte hge ho hstop =>
    obtain ⟨hd, hshut, hlower⟩ := hstop
    obtain ⟨u, hu, -, -, hoq, -, -, hesai, -, -, -⟩ := execAbortsAtShutInput s d hb hte hge ho hd hshut hlower
    obtain rfl := Host.Outcome.next.inj (hu.symm.trans h)
    exact ⟨by rw [hoq c, hc, if_neg Bool.false_ne_true], by rw [hesai]⟩

/-- Settles O34: the write is the disabled case of `WRITE TXc`, and each way of EXEC says what it does to every output queue. -/
theorem disabledChannelGetsNothing : Obligations.DisabledChannelGetsNothing := by
  intro s c hc
  refine ⟨fun v t hm h => ?_, fun t h => exec_exec_disabled hc h⟩
  rw [exec_decodeWrite] at h
  exact (Host.Outcome.next.inj ((execBusWrite_tx_disabled hm hc v).symm.trans h)).symm

/-! ### Runs of EXECs (43_esai.md R347, R348) -/

/-- The core's counter moves on by `d` cycles (60_exceptions.md R547). -/
def State.advanced (d : Nat) (s : State) : State :=
  { s with core := { s.core with counter := s.core.counter + d } }

@[simp] theorem State.advanced_cfg (s : State) (d : Nat) : (s.advanced d).cfg = s.cfg := rfl
@[simp] theorem State.advanced_bus (s : State) (d : Nat) : (s.advanced d).bus = s.bus := rfl
@[simp] theorem State.advanced_esai (s : State) (d : Nat) : (s.advanced d).esai = s.esai := rfl
@[simp] theorem State.advanced_e (s : State) (d : Nat) : (s.advanced d).e = s.e := rfl
@[simp] theorem State.advanced_counter (s : State) (d : Nat) : (s.advanced d).core.counter = s.core.counter + d := rfl

/-- A run that begins with an advance of `d`: its EXEC ends, and the rest of the run goes on from there. -/
theorem feed_cons {d : Nat} {ds : List Nat} {s t : State} :
    feed (d :: ds) s = some t ↔ ∃ u, exec .exec (s.advanced d) = .next u ∧ u.e = s.e ∧ feed ds u = some t := by
  rw [feed, State.advanced]
  cases exec .exec { s with core := { s.core with counter := s.core.counter + d } } <;> simp

/-- What a run of EXECs starts from: the engine is bound, an output channel is enabled, the snapshot is at the counter, and E is
Live and in no hold. -/
structure State.Feedable (s : State) : Prop where
  bound : s.bus.bound = true
  te : te s ≠ 0#6
  snap : s.esai.snap = s.core.counter % 2 ^ s.cfg.cycW
  e : s.e = { status := .live, held := none }

/-- The elapsed count after an advance from the snapshot is the advance, if it is below 2^CYC_W (43_esai.md R312). -/
theorem elapsedNow_advanced {s : State} {d : Nat} (hsnap : s.esai.snap = s.core.counter % 2 ^ s.cfg.cycW)
    (hd : d < 2 ^ s.cfg.cycW) : elapsedNow (s.advanced d) = d := by
  have hdiff : ((s.core.counter + d : Nat) : Int) - (s.esai.snap : Int) =
      d + (2 ^ s.cfg.cycW : Nat) * (s.core.counter / 2 ^ s.cfg.cycW : Nat) := by
    have hdiv : ((s.core.counter % 2 ^ s.cfg.cycW + 2 ^ s.cfg.cycW * (s.core.counter / 2 ^ s.cfg.cycW) : Nat) : Int) =
        s.core.counter := congrArg _ (Nat.mod_add_div _ _)
    rw [hsnap]
    push_cast at hdiv ⊢
    omega
  rw [elapsedNow, State.advanced_counter, State.advanced_esai, State.advanced_cfg, hdiff]
  push_cast
  rw [Int.add_mul_emod_self_left, Int.emod_eq_of_lt (Int.natCast_nonneg d) (by exact_mod_cast hd), Int.toNat_natCast]

/-- The state `t` is what `n` transfer ticks in `cycles` counted cycles make of `s`: the accumulator accounts for the cycles, every
enabled output queue has its channel's word `n` times more, TFS has toggled `n` times, and the settings are as before. -/
structure State.Paced (n cycles : Nat) (s t : State) : Prop where
  cfg : t.cfg = s.cfg
  bound : t.bus.bound = s.bus.bound
  e : t.e = s.e
  snap : s.esai.snap = s.core.counter % 2 ^ s.cfg.cycW → t.esai.snap = t.core.counter % 2 ^ t.cfg.cycW
  tcr : t.esai.tcr = s.esai.tcr
  txw : t.esai.txw = s.esai.txw
  inputs : s.InputsOpen → t.InputsOpen
  acc : s.esai.acc + cycles = n * s.cfg.cps + t.esai.acc
  tfs : t.esai.tfs = (s.esai.tfs ^^ decide (n % 2 = 1))
  outq : ∀ c : Fin 6, t.esai.outq[c] = if s.esai.tcr.getLsbD c.val then
    { items := s.esai.outq[c].items ++ List.replicate n s.esai.txw[c], shut := s.esai.outq[c].shut } else s.esai.outq[c]

theorem State.Paced.refl (s : State) : s.Paced 0 0 s where
  cfg := rfl
  bound := rfl
  e := rfl
  snap := id
  tcr := rfl
  txw := rfl
  inputs := id
  acc := by simp
  tfs := by simp
  outq := by simp

/-- A record of an ending does not matter to the pace. -/
theorem State.Paced.reply {s t : State} {n x : Nat} (h : s.Paced n x t) (ag : Agent) (o : Ending) :
    s.Paced n x (t.reply ag o) where
  cfg := h.cfg
  bound := h.bound
  e := h.e
  snap := h.snap
  tcr := h.tcr
  txw := h.txw
  inputs := h.inputs
  acc := h.acc
  tfs := h.tfs
  outq := h.outq

/-- The parity of a sum. -/
theorem decide_add_mod_two (m n : Nat) : decide ((m + n) % 2 = 1) = (decide (m % 2 = 1) ^^ decide (n % 2 = 1)) := by
  rcases Nat.mod_two_eq_zero_or_one m with hm | hm <;> rcases Nat.mod_two_eq_zero_or_one n with hn | hn <;>
    simp [Nat.add_mod, hm, hn]

theorem State.Paced.trans {s t u : State} {m n x y : Nat} (h : s.Paced m x t) (g : t.Paced n y u) :
    s.Paced (m + n) (x + y) u where
  cfg := g.cfg.trans h.cfg
  bound := g.bound.trans h.bound
  e := g.e.trans h.e
  snap := g.snap ∘ h.snap
  tcr := g.tcr.trans h.tcr
  txw := g.txw.trans h.txw
  inputs := g.inputs ∘ h.inputs
  acc := by
    have hacc := h.acc
    have gacc := g.acc
    rw [h.cfg] at gacc
    rw [Nat.add_mul]
    omega
  tfs := by rw [g.tfs, h.tfs, decide_add_mod_two, Bool.xor_assoc]
  outq := fun c => by
    rw [g.outq c, h.outq c, h.tcr, h.txw]
    cases s.esai.tcr.getLsbD c.val <;> simp [List.replicate_append_replicate]

theorem State.Feedable.of_paced {s t : State} {n x : Nat} (hs : s.Feedable) (h : s.Paced n x t) : t.Feedable where
  bound := h.bound.trans hs.bound
  te := by rw [Claims.te, h.tcr]; exact hs.te
  snap := h.snap hs.snap
  e := h.e.trans hs.e

/-- The number of transfer ticks of an EXEC after an advance (43_esai.md R310, R313). -/
def State.ticksAt (d : Nat) (s : State) : Nat := if s.cfg.cps ≤ s.esai.acc + d then 1 else 0

/-- An EXEC below the period ends, and is no tick. -/
theorem exec_advanced_below {s : State} {d : Nat} (hs : s.Feedable) (hd : d < 2 ^ s.cfg.cycW)
    (hlt : s.esai.acc + d < s.cfg.cps) :
    ∃ t, exec .exec (s.advanced d) = .next t ∧ s.Paced 0 d t := by
  have helapsed := elapsedNow_advanced hs.snap hd
  have hexec := execBelowPeriodOnlyAccumulates (s.advanced d) hs.bound hs.te (by rw [helapsed]; exact hlt)
  rw [helapsed] at hexec
  refine ⟨_, hexec, ?_⟩
  exact
    { State.Paced.refl s with
      snap := fun _ => rfl
      acc := by rw [Nat.zero_mul, Nat.zero_add]; rfl }

/-- An EXEC at the period, with the queues ready, ends and is one tick. -/
theorem exec_advanced_tick {s : State} {d : Nat} (hs : s.Feedable) (hd : d < 2 ^ s.cfg.cycW)
    (hge : s.cfg.cps ≤ s.esai.acc + d) (ho : s.OutputsReady) (hi : s.InputsOpen) :
    ∃ t, exec .exec (s.advanced d) = .next t ∧ s.Paced 1 d t := by
  have helapsed := elapsedNow_advanced hs.snap hd
  obtain ⟨t, hexec, hoq, hiq, -, hesai, -, ht⟩ :=
    execTransferTick (s.advanced d) hs.bound hs.te (by rw [helapsed]; exact hge) ho hi
  rw [State.advanced_esai] at hoq hiq hesai
  rw [helapsed, State.advanced_cfg, State.advanced_counter] at hesai
  have hcfg : t.cfg = s.cfg := by rw [ht]; rfl
  have hcounter : t.core.counter = s.core.counter + d := by rw [ht]; rfl
  have hpaced : s.Paced 1 d t :=
    { cfg := hcfg
      bound := by rw [ht]; rfl
      e := by rw [ht]; rfl
      snap := fun _ => by rw [hesai, hcounter, hcfg]
      tcr := by rw [hesai]
      txw := by rw [hesai]
      inputs := fun _ c hc => by
        rw [hesai] at hc
        show t.esai.inq[c].shut = false
        rw [hiq c, if_pos hc]
      acc := by rw [hesai]; dsimp only; omega
      tfs := by rw [hesai]; simp
      outq := fun c => by
        rw [hoq c]
        split
        next hc => rw [(show s.esai.outq[c].shut = false from (ho c hc).1)]; rfl
        next => rfl }
  exact ⟨_, hexec, hpaced.reply _ _⟩

/-- An EXEC that ends, after an advance, is a tick exactly if the accumulator reaches CPS. -/
theorem paced_of_exec_advanced {s t : State} {d : Nat} (hs : s.Feedable) (hd : d < 2 ^ s.cfg.cycW)
    (h : exec .exec (s.advanced d) = .next t) (he : t.e = s.e) : s.Paced (s.ticksAt d) d t := by
  have helapsed := elapsedNow_advanced hs.snap hd
  cases (s.advanced d).execWay with
  | idle hte => exact absurd hte hs.te
  | below hte hlt =>
    rw [helapsed, State.advanced_cfg, State.advanced_esai] at hlt
    obtain ⟨u, hu, hpaced⟩ := exec_advanced_below hs hd hlt
    obtain rfl := Host.Outcome.next.inj (hu.symm.trans h)
    rwa [State.ticksAt, if_neg (Nat.not_le.2 hlt)]
  | tick hte hge ho hi =>
    rw [helapsed, State.advanced_cfg, State.advanced_esai] at hge
    obtain ⟨u, hu, hpaced⟩ := exec_advanced_tick hs hd hge ho hi
    obtain rfl := Host.Outcome.next.inj (hu.symm.trans h)
    rwa [State.ticksAt, if_pos hge]
  | stopsAtOutput c hge hstop => exact absurd he (e_ne_of_stopsAtOutput (s := s.advanced d) hs.bound hs.e hge hstop h)
  | stopsAtInput c hte hge ho hstop =>
    exact absurd he (e_ne_of_stopsAtInput (s := s.advanced d) hs.bound hs.e hte hge ho hstop h)

/-- An EXEC that adds at most CPS to an accumulator below it leaves the accumulator below it (43_esai.md R348). -/
theorem State.Paced.acc_lt {s t : State} {d : Nat} (h : s.Paced (s.ticksAt d) d t) (hacc : s.esai.acc < s.cfg.cps)
    (hd : d ≤ s.cfg.cps) : t.esai.acc < t.cfg.cps := by
  have hsum := h.acc
  rw [h.cfg]
  unfold State.ticksAt at hsum
  split at hsum <;> omega

/-- A run of EXECs that all end makes some number of ticks in its cycles; the accumulator stays below CPS if it was and no advance
is above CPS (43_esai.md R348). -/
theorem paced_of_feed {ds : List Nat} {s t : State} (hs : s.Feedable) (hds : ∀ d ∈ ds, d < 2 ^ s.cfg.cycW)
    (h : feed ds s = some t) :
    ∃ n, s.Paced n ds.sum t ∧
      (s.esai.acc < s.cfg.cps → (∀ d ∈ ds, d ≤ s.cfg.cps) → t.esai.acc < s.cfg.cps) := by
  induction ds generalizing s with
  | nil =>
    obtain rfl := Option.some.inj h
    exact ⟨0, .refl s, fun hacc _ => hacc⟩
  | cons d ds ih =>
    rw [List.forall_mem_cons] at hds
    obtain ⟨u, hexec, he, hrest⟩ := feed_cons.1 h
    have hstep := paced_of_exec_advanced hs hds.1 hexec he
    obtain ⟨n, hpaced, hbelow⟩ := ih (hs.of_paced hstep) (by rw [hstep.cfg]; exact hds.2) hrest
    refine ⟨s.ticksAt d + n, by rw [List.sum_cons]; exact hstep.trans hpaced, fun hacc hle => ?_⟩
    rw [List.forall_mem_cons] at hle
    rw [hstep.cfg] at hbelow
    exact hbelow (hstep.cfg ▸ hstep.acc_lt hacc hle.1) hle.2

/-- Where the accumulator ends below CPS, the ticks are the periods in the accounted cycles (43_esai.md R348). -/
theorem State.Paced.ticks_eq_div {s t : State} {n x : Nat} (h : s.Paced n x t) (hlt : t.esai.acc < s.cfg.cps) :
    n = (s.esai.acc + x) / s.cfg.cps := by
  rw [h.acc, Nat.mul_comm, Nat.mul_add_div (Nat.zero_lt_of_lt hlt), Nat.div_eq_of_lt hlt, Nat.add_zero]

/-- Settles O36: the ticks are counted along the run. -/
theorem accumulatorConserved : Obligations.AccumulatorConserved := by
  intro s t ds hb hte hsnap hds he h
  obtain ⟨n, hpaced, hbelow⟩ := paced_of_feed ⟨hb, hte, hsnap, he⟩ hds h
  refine ⟨n, hpaced.acc, fun c hc => by rw [hpaced.outq c, if_pos hc], hpaced.tfs, fun _ hacc hle => ?_⟩
  have hlt := hbelow hacc hle
  exact ⟨hlt, hpaced.ticks_eq_div hlt⟩

/-- Every enabled output queue is open and has room for `k` more words (43_esai.md R347). -/
def State.RoomFor (k : Nat) (s : State) : Prop :=
  ∀ c : Fin 6, s.esai.tcr.getLsbD c.val = true → s.esai.outq[c].shut = false ∧ s.esai.outq[c].items.length + k ≤ 8192

/-- Room for a word at least is what the outputs of a tick need. -/
theorem State.RoomFor.outputsReady {s : State} {k : Nat} (h : s.RoomFor k) (hk : 1 ≤ k) : s.OutputsReady := by
  intro c hc
  obtain ⟨hopen, hroom⟩ := h c hc
  exact ⟨hopen, show s.esai.outq[c].items.length < 8192 by omega⟩

/-- Ticks take up the room that they had. -/
theorem State.RoomFor.of_paced {s t : State} {k n x : Nat} (h : s.RoomFor (n + k)) (hp : s.Paced n x t) : t.RoomFor k := by
  intro c hc
  rw [hp.tcr] at hc
  obtain ⟨hopen, hroom⟩ := h c hc
  rw [hp.outq c, if_pos hc]
  refine ⟨hopen, ?_⟩
  simp only [List.length_append, List.length_replicate]
  omega

/-- EXECs fed what is missing to `k` periods, with room for `k` words, all end (43_esai.md R347). -/
theorem feed_ends {ds : List Nat} {s : State} {k : Nat} (hs : s.Feedable) (hcps : 1 ≤ s.cfg.cps)
    (hds : ∀ d ∈ ds, d < 2 ^ s.cfg.cycW) (hsum : s.esai.acc + ds.sum = k * s.cfg.cps)
    (hi : s.InputsOpen) (hroom : s.RoomFor k) : ∃ t, feed ds s = some t := by
  induction ds generalizing s k with
  | nil => exact ⟨s, rfl⟩
  | cons d ds ih =>
    rw [List.forall_mem_cons] at hds
    rw [List.sum_cons] at hsum
    have go {n m : Nat} {u : State} (hk : k = n + m) (hexec : exec .exec (s.advanced d) = .next u) (hp : s.Paced n d u) :
        ∃ t, feed (d :: ds) s = some t := by
      subst hk
      have hrest : u.esai.acc + ds.sum = m * u.cfg.cps := by
        have hacc := hp.acc
        rw [Nat.add_mul] at hsum
        rw [hp.cfg]
        omega
      obtain ⟨t, ht⟩ := ih (hs.of_paced hp) (hp.cfg ▸ hcps) (by rw [hp.cfg]; exact hds.2) hrest (hp.inputs hi)
        (hroom.of_paced hp)
      exact ⟨t, feed_cons.2 ⟨u, hexec, hp.e, ht⟩⟩
    rcases Nat.lt_or_ge (s.esai.acc + d) s.cfg.cps with hlt | hge
    · obtain ⟨u, hexec, hp⟩ := exec_advanced_below hs hds.1 hlt
      exact go (Nat.zero_add k).symm hexec hp
    · have hk : 1 ≤ k := by
        by_contra hk
        rw [Nat.eq_zero_of_not_pos hk, Nat.zero_mul] at hsum
        omega
      obtain ⟨m, rfl⟩ := Nat.exists_eq_add_of_le hk
      obtain ⟨u, hexec, hp⟩ := exec_advanced_tick hs hds.1 hge (hroom.outputsReady hk) hi
      exact go rfl hexec hp

/-- Settles O37: the run ends, and the cycles it was fed account for `k` ticks and nothing over. -/
theorem pacingIsExact : Obligations.PacingIsExact := by
  intro s ds k hb hte hcps hzero hsnap hds hsum he hi hroom
  have hs : s.Feedable := ⟨hb, hte, hsnap, he⟩
  have hfit : ∀ d ∈ ds, d < 2 ^ s.cfg.cycW := fun d hd => (hds d hd).2
  obtain ⟨t, hfeed⟩ := feed_ends (k := k) hs hcps hfit (by rw [hzero, hsum, Nat.zero_add]) hi hroom
  obtain ⟨n, hpaced, hbelow⟩ := paced_of_feed hs hfit hfeed
  have hlt := hbelow (by omega) fun d hd => (hds d hd).1
  have hn : n = k := by
    rw [hpaced.ticks_eq_div hlt, hzero, hsum, Nat.zero_add, Nat.mul_div_cancel k hcps]
  subst hn
  refine ⟨t, hfeed, ?_, hpaced.tfs, fun c => ?_⟩
  · have hacc := hpaced.acc
    omega
  · rw [hpaced.outq c]
    split
    next hc => rw [(hroom c hc).1]
    next => rfl

end Sys2Proof.Machine

/-! PROOFS. The SHI (44_shi.md): what an access of HCSR, HRX and HTX does, and what an EXEC does to the pending counts. -/

namespace Sys2Proof.Machine

open Sys2Proof.Claims

/-! ### What an EXEC does to the SHI (44_shi.md R380, R383) -/

/-- The three ways the SHI's tick can go: nothing is taken, a pending RX count or a pending TX count (44_shi.md R380). -/
theorem shiTicked_cases (s : State) :
    shiTicked s = s.shi ∨
    (0 < s.shi.pendRx ∧ hen s = true ∧ hrie s ≠ 0#2 ∧ shiTicked s = { s.shi with pendRx := s.shi.pendRx - 1 }) ∨
    (0 < s.shi.pendTx ∧ hen s = true ∧ htie s = true ∧ shiTicked s = { s.shi with pendTx := s.shi.pendTx - 1 }) := by
  unfold shiTicked
  split
  next => exact .inl rfl
  next hoff =>
    have hon : hen s = true := Bool.eq_true_of_not_eq_false hoff
    split
    next hrx => exact .inr (.inl ⟨hrx.1, hon, hrx.2, rfl⟩)
    next =>
      split
      next htx => exact .inr (.inr ⟨htx.2, hon, htx.1, rfl⟩)
      next => exact .inl rfl

/-- An EXEC gives the SHI one tick, or none if it stops in the ESAI's before the SHI's turn (41_bus.md R236, R240). -/
theorem exec_exec_shi {s t : State} (h : exec .exec s = .next t) : t.shi = s.shi ∨ t.shi = shiTicked s := by
  have hb := bound_of_exec_exec h
  have stopped (hshi : t.shi = if shiFirst s.cfg.order then shiTicked s else s.shi) :
      t.shi = s.shi ∨ t.shi = shiTicked s := by
    rw [hshi]
    cases shiFirst s.cfg.order with
    | true => exact .inr rfl
    | false => exact .inl rfl
  cases s.execWay with
  | idle hte =>
    obtain rfl := Host.Outcome.next.inj ((execDeliversShi s hb hte).symm.trans h)
    exact .inr rfl
  | below hte hlt =>
    obtain rfl := Host.Outcome.next.inj ((execBelowPeriodOnlyAccumulates s hb hte hlt).symm.trans h)
    exact .inr rfl
  | tick hte hge ho hi =>
    obtain ⟨u, hu, -, -, -, -, -, hframe⟩ := execTransferTick s hb hte hge ho hi
    obtain rfl := Host.Outcome.next.inj (hu.symm.trans h)
    exact .inr (by rw [State.reply_shi, hframe])
  | stopsAtOutput c hge hstop =>
    obtain ⟨hc, hfull, hlower⟩ := hstop
    obtain ⟨u, hu, -, -, -, -, hshi, -, -⟩ := execHoldsOrAbortsAtOutput s c hb hge hc hlower hfull
    obtain rfl := Host.Outcome.next.inj (hu.symm.trans h)
    exact stopped hshi
  | stopsAtInput c hte hge ho hstop =>
    obtain ⟨hc, hshut, hlower⟩ := hstop
    obtain ⟨u, hu, -, -, -, -, -, -, hshi, -, -⟩ := execAbortsAtShutInput s c hb hte hge ho hc hshut hlower
    obtain rfl := Host.Outcome.next.inj (hu.symm.trans h)
    exact stopped hshi

/-- Settles O35: an EXEC gives at most one tick, and a tick takes at most one count. -/
theorem pendingCountersFallByOne : Obligations.PendingCountersFallByOne := by
  intro s t h
  have hway : t.shi = s.shi ∨ _ := (exec_exec_shi h).elim .inl fun htick => htick ▸ shiTicked_cases s
  rcases hway with hshi | ⟨hpos, hon, hmode, hshi⟩ | ⟨hpos, hon, hie, hshi⟩ <;> rw [hshi]
  · exact ⟨.inl rfl, .inl rfl, .inl rfl, rfl⟩
  · exact ⟨.inr ⟨Nat.sub_add_cancel hpos, hon, hmode⟩, .inl rfl, .inr rfl, rfl⟩
  · exact ⟨.inl rfl, .inr ⟨Nat.sub_add_cancel hpos, hon, hie⟩, .inl rfl, rfl⟩

/-! ### HCSR (44_shi.md R389, R390) -/

/-- HCSR as it is read is the stored bits and, at bit 17, whether rxq holds a word (44_shi.md R390). -/
theorem ShiState.hcsrRead_toNat (sh : ShiState) :
    sh.hcsrRead.toNat = sh.hcsr.toNat + if sh.rxq.items = [] then 0 else 2 ^ 17 := by
  have hstored : sh.hcsrWord.toNat = sh.hcsr.toNat := BitVec.toNat_setWidth_of_le (by decide)
  have hlow : sh.hcsr.toNat < 2 ^ 17 := sh.hcsr.isLt.trans (by decide)
  have hbit : ∀ b : Bool, (flagAt bitHRNE b).toNat = 2 ^ 17 * b.toNat := by decide
  rw [ShiState.hcsrRead, BitVec.toNat_or, hstored, hbit, Nat.or_comm, ← Nat.two_pow_add_eq_or_of_lt hlow, ShiState.hrne]
  cases sh.rxq.items <;> simp [Nat.add_comm]

/-- Settles O14: the write rule keeps the low bits of the truncated operand, and `ShiState.hcsrRead_toNat` says what word the read
rule answers. -/
theorem hcsrStoresAndShowsNotEmpty : Obligations.HcsrStoresAndShowsNotEmpty := by
  intro s k v hm
  have hlow : (BitVec.ofNat 24 v).extractLsb' 0 14 = BitVec.ofNat 14 v :=
    BitVec.eq_of_toNat_eq (by simp)
  refine ⟨?_, s.shi.hcsrRead, execBusRead_done (r := .hcsr) hm rfl, s.shi.hcsrRead_toNat⟩
  rw [← hlow]
  exact execBusWrite_done (r := .hcsr) hm rfl

/-! ### Writes of HRX and HTX (44_shi.md R386, R387) -/

/-- A push to an open queue with room puts the word last (42_queue.md R271). -/
theorem pushAt_done (p : HoldPoint) {id : QId} {s : State} (v : Word) (ho : (s.queue id).shut = false)
    (hl : (s.queue id).items.length < Config.qcap) :
    pushAt p id v s = .done () (s.setQueue id { items := (s.queue id).items ++ [v], shut := false }) := by
  rw [pushAt, Queue.push_ok _ v ho hl]

/-- A push to an open full queue holds (42_queue.md R271). -/
theorem pushAt_hold (p : HoldPoint) {id : QId} {s : State} (v : Word) (ho : (s.queue id).shut = false)
    (hl : Config.qcap ≤ (s.queue id).items.length) : pushAt p id v s = .hold p s := by
  rw [pushAt, Queue.push_block _ v ho hl]

/-- A push to a shut queue aborts (42_queue.md R271). -/
theorem pushAt_abort (p : HoldPoint) {id : QId} {s : State} (v : Word) (h : (s.queue id).shut = true) :
    pushAt p id v s = .abort s := by
  rw [pushAt, Queue.push_shut _ v h]

/-- A write of a register whose write rule pushes the truncated word and then counts it: it is done if the queue is open and has
room, holds if that is full, and aborts if it is shut, the last two with nothing pushed or counted (42_queue.md R271). -/
theorem execBusWrite_push {s : State} {r : Reg} {v : Nat} {p : HoldPoint} {id : QId} {count : State → State} (hm : s.Mapped)
    (hrule : writeReg r (trunc24 v) s = (pushAt p id (BitVec.ofNat 24 v) s).bind fun _ t => .done () (count t)) :
    ((s.queue id).shut = false → (s.queue id).items.length < Config.qcap →
      execBusWrite (regAddr r).1 (regAddr r).2 v s =
        doneUnit (count (s.setQueue id { items := (s.queue id).items ++ [BitVec.ofNat 24 v], shut := false }))) ∧
    ((s.queue id).shut = false → Config.qcap ≤ (s.queue id).items.length →
      execBusWrite (regAddr r).1 (regAddr r).2 v s = .next (s.holdE (.queue p .bare))) ∧
    ((s.queue id).shut = true → execBusWrite (regAddr r).1 (regAddr r).2 v s = .next s.abortE) := by
  rw [execBusWrite, busWrite_mapped hm (regAt_regAddr r), hrule]
  refine ⟨fun ho hl => ?_, fun ho hl => ?_, fun hs => ?_⟩
  · rw [pushAt_done p _ ho hl]; rfl
  · rw [pushAt_hold p _ ho hl]; rfl
  · rw [pushAt_abort p _ hs]; rfl

/-- Settles O20: the write rule of HRX pushes to rxq, and `State.countRx_eq` says what it counts. -/
theorem hrxWriteContract : Obligations.HrxWriteContract := by
  intro s v hm
  obtain ⟨hdone, hhold, habort⟩ :=
    execBusWrite_push (r := .hrx) (v := v) (p := .hrxWrite (BitVec.ofNat 24 v)) (id := .shiRx) (count := State.countRx) hm rfl
  refine ⟨fun ho hl => ?_, hhold, habort⟩
  have h := hdone ho hl
  rw [State.countRx_eq] at h
  exact h

/-- Settles O21: the write rule of HTX pushes to txq and counts whatever HCSR holds. -/
theorem htxWriteCounts : Obligations.HtxWriteCounts :=
  fun _ v hm => execBusWrite_push (r := .htx) (p := .htxWrite (BitVec.ofNat 24 v)) (id := .shiTx) (count := State.countTx) hm rfl

/-! ### Reads of HRX (44_shi.md R384, R385) -/

/-- A pop of a shut queue aborts (42_queue.md R272). -/
theorem popAt_abort (p : HoldPoint) {id : QId} {s : State} (h : (s.queue id).shut = true) : popAt p id s = .abort s := by
  rw [popAt, Queue.pop_shut _ h]

/-- Settles O18: the read is the pop of rxq. -/
theorem hrxOrdinaryReadPops : Obligations.HrxOrdinaryReadPops := by
  intro s hm
  rw [exec_readHrx hm]
  refine ⟨fun w ws hq => ?_, fun hq => ?_, fun hs => ?_⟩
  · rw [popAt_done (id := .shiRx) .hrxRead hq]; rfl
  · rw [popAt_hold (id := .shiRx) .hrxRead hq]; rfl
  · rw [popAt_abort (id := .shiRx) .hrxRead hs]; rfl

/-- `READ.BT HRX` with the documented map is the bit-test read rule of HRX (44_shi.md R385). -/
theorem exec_readBtHrx {s : State} (hm : s.Mapped) : exec .readBtHrx s = ((readHrxBitTest s).map .word).endE := by
  show ((busRead .x 0x94#24 .bitTest s).map Result.word).endE = _
  rw [busRead_mapped hm (r := .hrx) (by decide)]
  rfl

/-- Settles O19: the read rule answers the front of rxq, whether or not that is shut. -/
theorem hrxBitTestPeeks : Obligations.HrxBitTestPeeks := by
  intro s hm
  rw [exec_readBtHrx hm]
  rcases readHrxBitTest_cases s with ⟨w, ws, hq, hread⟩ | ⟨hq, hread⟩ <;> rw [hread, hq]
  · refine ⟨fun w' ws' h => ?_, nofun⟩
    obtain ⟨rfl, rfl⟩ := List.cons.inj h
    rfl
  · exact ⟨nofun, fun _ => rfl⟩

end Sys2Proof.Machine

/-! PROOFS. The debugger (45_debugger.md): its breakpoints, CONT, and DSTEP, which holds, stops at a breakpoint or runs one instruction
of the core; and what a counted run of DSTEPs leaves to go. -/

namespace Sys2Proof.Machine

open Sys2Proof.Claims

/-! ### Breakpoints and CONT (45_debugger.md R431-R433) -/

/-- Settles O46: the lists are `bpInsert` and `bpErase`, whose members are known. -/
theorem breakpointSetAndDelete : Obligations.BreakpointSetAndDelete := fun s a =>
  ⟨⟨bpInsert a s.dbg.bps, rfl, fun b => mem_bpInsert a b s.dbg.bps⟩,
    ⟨bpErase a s.dbg.bps, rfl, fun b => mem_bpErase a b s.dbg.bps⟩⟩

/-- Settles O47: the mode set is `contMode`. -/
theorem continueSetsMode : Obligations.ContinueSetsMode := fun _ _ => rfl

/-- CONT leaves the debugger running, whatever the count (45_debugger.md R433). -/
theorem contMode_running (n : Nat) : ∃ rem, contMode n = .running rem := by
  unfold contMode
  split
  · exact ⟨_, rfl⟩
  · exact ⟨_, rfl⟩

/-! ### The three ways of a DSTEP (45_debugger.md R434) -/

/-- DSTEP of a bound engine is its wait for the debugger and what follows it (41_bus.md R239). -/
theorem exec_dstep_of_bound {s : State} (hb : s.bus.bound = true) : exec .dstep s = dstepFromWait s :=
  if_pos hb

theorem dstepFromWait_stopped {s : State} (hm : s.dbg.mode = .stopped) : dstepFromWait s = .next (s.holdE .debugger) := by
  rw [dstepFromWait, hm]

theorem dstepFromWait_atBreakpoint {s : State} {rem : Option Nat} (hm : s.dbg.mode = .running rem)
    (hpc : s.getPc ∈ s.dbg.bps) : dstepFromWait s = doneUnit (s.setMode .stopped) := by
  rw [dstepFromWait, hm]
  exact if_pos hpc

theorem dstepFromWait_runs {s : State} {rem : Option Nat} (hm : s.dbg.mode = .running rem)
    (hpc : s.getPc ∉ s.dbg.bps) : dstepFromWait s = coreTxns s.core.next.txns s := by
  rw [dstepFromWait, hm]
  exact if_neg hpc

/-- A DSTEP at a breakpoint is done with the debugger Stopped. -/
theorem exec_dstep_atBreakpoint {s : State} {rem : Option Nat} (hb : s.bus.bound = true) (hm : s.dbg.mode = .running rem)
    (hpc : s.getPc ∈ s.dbg.bps) : exec .dstep s = doneUnit { s with dbg := { s.dbg with mode := .stopped } } :=
  (exec_dstep_of_bound hb).trans (dstepFromWait_atBreakpoint hm hpc)

/-- A DSTEP while the debugger is Stopped holds. -/
theorem exec_dstep_stopped {s : State} (hb : s.bus.bound = true) (hm : s.dbg.mode = .stopped) :
    exec .dstep s = .next { s with e := { s.e with held := some .debugger } } :=
  (exec_dstep_of_bound hb).trans (dstepFromWait_stopped hm)

/-- Settles O48: the two ways of a DSTEP in which nothing is executed. -/
theorem dstepHoldsAndStops : Obligations.DstepHoldsAndStops := fun _ hb =>
  ⟨exec_dstep_stopped hb, fun _ => exec_dstep_atBreakpoint hb⟩

/-- Settles O50: CONT leaves the debugger running and BKPT.SET puts the address into the set, so the DSTEP is one at a breakpoint. -/
theorem noStepOver : Obligations.NoStepOver := by
  rintro s n a hb rfl
  refine ⟨fun ha => ⟨_, rfl, ?_⟩, _, _, rfl, rfl, ?_⟩
  · obtain ⟨rem, hm⟩ := contMode_running n
    exact exec_dstep_atBreakpoint hb hm ha
  · exact exec_dstep_atBreakpoint hb rfl ((mem_bpInsert _ _ _).2 (.inl rfl))

/-! ### Bus accesses leave the view of the core (60_exceptions.md R546; log 5) -/

/-- A part ends, holds or aborts with the view of the core as it was, or faults: what `Res.Within` does not ask, as BOOT sets the
program counter. -/
def Res.KeepsCore {α : Type} (s : State) : Res α → Prop
  | .done _ t => t.core = s.core
  | .hold _ t => t.core = s.core
  | .abort t => t.core = s.core
  | .fault _ => True

theorem Res.KeepsCore.map {α β : Type} {s : State} {r : Res α} (g : α → β) (h : r.KeepsCore s) : (r.map g).KeepsCore s := by
  cases r <;> exact h

theorem pushAt_keepsCore (p : HoldPoint) (id : QId) (v : Word) (s : State) : (pushAt p id v s).KeepsCore s := by
  rcases pushAt_cases p id v s with ⟨-, -, h⟩ | ⟨-, -, h⟩ | ⟨-, h⟩ <;> rw [h]
  · exact s.setQueue_core id _
  · exact rfl
  · exact rfl

theorem popAt_keepsCore (p : HoldPoint) (id : QId) (s : State) : (popAt p id s).KeepsCore s := by
  rcases popAt_cases p id s with ⟨w, ws, -, h⟩ | ⟨-, h⟩ | ⟨-, h⟩ <;> rw [h]
  · exact s.setQueue_core id _
  · exact rfl
  · exact rfl

/-- A push, then an update that leaves the core. -/
theorem pushAt_bind_keepsCore (p : HoldPoint) (id : QId) (v : Word) (s : State) {count : State → State}
    (hc : ∀ t, (count t).core = t.core) : ((pushAt p id v s).bind fun _ t => .done () (count t)).KeepsCore s := by
  have h := pushAt_keepsCore p id v s
  revert h
  cases pushAt p id v s with
  | done _ t => exact (hc t).trans
  | hold _ _ => exact fun h => h
  | abort _ => exact fun h => h
  | fault _ => exact fun h => h

theorem readReg_keepsCore (r : Reg) (k : Kind) (s : State) : (readReg r k s).KeepsCore s := by
  cases r with
  | hrx =>
    cases k with
    | ordinary => exact popAt_keepsCore .hrxRead .shiRx s
    | bitTest =>
      show (readHrxBitTest s).KeepsCore s
      rcases readHrxBitTest_cases s with ⟨w, ws, -, h⟩ | ⟨-, h⟩ <;> rw [h]
      · exact rfl
      · trivial
  | rx c => exact s.rxState_core c
  | _ => exact rfl

theorem writeReg_keepsCore (r : Reg) (v : Word) (s : State) : (writeReg r v s).KeepsCore s := by
  cases r with
  | hrx => exact pushAt_bind_keepsCore _ _ _ _ State.countRx_core
  | htx => exact pushAt_bind_keepsCore _ _ _ _ State.countTx_core
  | tx c =>
    show (writeTxReg c v s).KeepsCore s
    unfold writeTxReg
    split
    · exact (s.txAccept c v).txComplete_core
    · exact rfl
  | _ => exact rfl

theorem busTxn_keepsCore (x : BusTxn) (s : State) : (busTxn x s).KeepsCore s := by
  cases x with
  | read a off k =>
    refine Res.KeepsCore.map _ ?_
    unfold busRead
    split
    · exact readReg_keepsCore _ _ _
    · exact s.memReadState_core a off
  | write a off v =>
    refine Res.KeepsCore.map _ ?_
    unfold busWrite
    split
    · exact writeReg_keepsCore _ _ _
    · exact s.memWrite_core a off _

/-! ### Stretches of E that end (00_scope.md R13) -/

/-- A stretch of a free E after which E is as before neither holds nor aborts: its part is done, and what follows the part leaves the
next state. -/
theorem Res.Within.outcome_ends {α : Type} {s t : State} {r : Res α} {fr : Frame} {k : α → State → Out} (h : r.Within s)
    (he : s.e = { status := .live, held := none }) (ho : r.outcome fr k = .next t) (hte : t.e = s.e) :
    ∃ a u, r = .done a u ∧ s.Within u ∧ k a u = .next t := by
  cases r with
  | done a u => exact ⟨a, u, rfl, h, ho⟩
  | hold p u =>
    obtain rfl := Host.Outcome.next.inj ho
    simp [he] at hte
  | abort u =>
    obtain rfl := Host.Outcome.next.inj ho
    simp [he] at hte
  | fault f => cases ho

/-! ### The instruction of a DSTEP (45_debugger.md R434, 60_exceptions.md R546) -/

/-- A bus access of the core's instruction is E's transaction with the same access. -/
theorem exec_accessInstr (x : BusTxn) (s : State) : exec (accessInstr x) s = (busTxn x s).endE := by
  cases x with
  | read a off k => exact exec_decodeRead a k off s
  | write a off v => exact exec_decodeWrite a off v s

/-- A bus access that is done is followed by the rest of the instruction, its ending recorded (log 6). -/
theorem coreTxns_cons_done {x : BusTxn} {s t : State} {r : Result} (h : busTxn x s = .done r t) (xs : List BusTxn) :
    coreTxns (x :: xs) s = coreTxns xs (t.doneE r) := by
  rw [coreTxns, h, Res.outcome_done]

/-- An EXEC that is done ends the instruction and the DSTEP. -/
theorem coreTxns_nil_done {s t : State} (h : execAll s.coreRetire = .done () t) : coreTxns [] s = .next t.dstepEnd := by
  rw [coreTxns, h]
  rfl

/-- A run of bus accesses that begins with `x`: its transaction ends, and the rest of the run goes on from there. -/
theorem accesses_cons {x : BusTxn} {xs : List BusTxn} {s t : State} :
    accesses (x :: xs) s = some t ↔ ∃ u, exec (accessInstr x) s = .next u ∧ u.e = s.e ∧ accesses xs u = some t := by
  rw [accesses]
  cases exec (accessInstr x) s <;> simp

/-- An instruction whose bus accesses all end goes on as if E had issued them one after the other; they leave the debugger, E and the
view of the core. -/
theorem coreTxns_of_accesses {l : List BusTxn} {s u : State} (he : s.e = { status := .live, held := none })
    (h : accesses l s = some u) : coreTxns l s = coreTxns [] u ∧ u.dbg = s.dbg ∧ u.e = s.e ∧ u.core = s.core := by
  induction l generalizing s with
  | nil =>
    obtain rfl := Option.some.inj h
    exact ⟨rfl, rfl, rfl, rfl⟩
  | cons x xs ih =>
    obtain ⟨t, ht, hte, hrest⟩ := accesses_cons.1 h
    rw [exec_accessInstr] at ht
    obtain ⟨r, v, hdone, hwithin, hv⟩ := (busTxn_within x s).outcome_ends he ht hte
    obtain rfl := Host.Outcome.next.inj hv
    have hcore := busTxn_keepsCore x s
    rw [hdone] at hcore
    obtain ⟨hrun, hdbg, hue, hucore⟩ := ih (hte.trans he) hrest
    exact ⟨(coreTxns_cons_done hdone xs).trans hrun, hdbg.trans hwithin.dbg, hue.trans hte, hucore.trans hcore⟩

/-- The count after an instruction is executed is `countedDown` (45_debugger.md R434). -/
theorem modeAfter_running (rem : Option Nat) : modeAfter (.running rem) = countedDown rem := by
  cases rem <;> rfl

/-- The end of a DSTEP whose instruction ran in a running mode (45_debugger.md R434). -/
theorem State.dstepEnd_eq {t : State} {rem : Option Nat} (hm : t.dbg.mode = .running rem) :
    t.dstepEnd = State.doneE .unit ((t.doneE .unit).setMode (countedDown rem)) := by
  rw [State.dstepEnd, hm, modeAfter_running]

/-- The SHI's tick does nothing while HEN is 0 (44_shi.md R380). -/
theorem State.shiExec_of_hen_eq_false {s : State} (h : hen s = false) : s.shiExec = s := by
  simp [State.shiExec_eq, shiTicked, shiRequests, h]

/-- An EXEC of a free E that ends is a fan-out that is done, its ending recorded (41_bus.md R236, R240; log 6). -/
theorem execAll_done_of_exec_exec {s t : State} (he : s.e = { status := .live, held := none }) (h : exec .exec s = .next t)
    (hte : t.e = s.e) : ∃ u, execAll s = .done () u ∧ s.Within u ∧ t = u.doneE .unit := by
  have hend : (execAll s).outcome .bare (fun _ u => .next (u.doneE .unit)) = .next t := by
    rw [← h, exec_exec_of_bound (bound_of_exec_exec h)]
    cases execAll s <;> rfl
  obtain ⟨_, u, hdone, hwithin, hu⟩ := (execAll_within s).outcome_ends he hend hte
  exact ⟨u, hdone, hwithin, (Host.Outcome.next.inj hu).symm⟩

/-- The EXEC of an instruction does nothing where neither the ESAI nor the SHI is enabled (43_esai.md R311, 44_shi.md R380). -/
theorem coreTxns_nil_of_disabled {s : State} (hte : te s = 0#6) (hhen : hen s = false) :
    coreTxns [] s = .next s.coreRetire.dstepEnd := by
  have hidle : s.coreRetire.shiExec = s.coreRetire := State.shiExec_of_hen_eq_false hhen
  have hexec : execAll s.coreRetire = .done () s.coreRetire.shiExec := execAll_of_te_eq_zero hte
  exact coreTxns_nil_done (hexec.trans (congrArg _ hidle))

/-- A DSTEP whose bus accesses and EXEC end is done in the state the EXEC leaves, with the count fallen. -/
theorem exec_dstep_of_accesses {s u w : State} {rem : Option Nat} (hb : s.bus.bound = true)
    (he : s.e = { status := .live, held := none }) (hm : s.dbg.mode = .running rem) (hpc : s.getPc ∉ s.dbg.bps)
    (hacc : accesses s.core.next.txns s = some u)
    (hexec : exec .exec { u with core := { u.core with counter := s.core.next.counter, pc := s.core.next.pc } } = .next w)
    (hwe : w.e = u.e) : exec .dstep s = doneUnit { w with dbg := { s.dbg with mode := countedDown rem } } := by
  obtain ⟨hrun, hdbg, hue, hcore⟩ := coreTxns_of_accesses he hacc
  rw [← hcore] at hexec
  obtain ⟨x, hdone, hwithin, rfl⟩ := execAll_done_of_exec_exec (s := u.coreRetire) (hue.trans he) hexec hwe
  have hxdbg : x.dbg = s.dbg := hwithin.dbg.trans hdbg
  rw [exec_dstep_of_bound hb, dstepFromWait_runs hm hpc, hrun, coreTxns_nil_done hdone,
    State.dstepEnd_eq (hxdbg ▸ hm), ← hxdbg]
  rfl

/-- A write of EMBC by the core's instruction (46_ancillary.md R474). -/
theorem busTxn_write_embc {s : State} (hm : s.Mapped) (v : Nat) :
    busTxn (.write .y 0xE6#24 v) s = .done .unit { s with embc := BitVec.ofNat 24 v } := by
  rw [busTxn, busWrite_mapped hm (r := .embc) (by decide)]
  rfl

/-- A read of EMBC by the core's instruction (46_ancillary.md R475). -/
theorem busTxn_read_embc {s : State} (hm : s.Mapped) (k : Kind) :
    busTxn (.read .y 0xE6#24 k) s = .done (.word s.embc) s := by
  rw [busTxn, busRead_mapped hm (r := .embc) (by decide)]
  rfl

/-- The instruction that writes EMBC and reads it back, in a state in which neither peripheral has anything to do at the EXEC: the
write, the read of the word written, the EXEC and the DSTEP are done, one after the other (46_ancillary.md R474, R475). -/
theorem coreTxns_writeReadEmbc {s : State} {rem : Option Nat} (hmap : s.Mapped) (hte : te s = 0#6) (hhen : hen s = false)
    (hm : s.dbg.mode = .running rem) (v : Nat) (k : Kind) :
    coreTxns [.write .y 0xE6#24 v, .read .y 0xE6#24 k] s = .next { s with
      embc := BitVec.ofNat 24 v
      core := { s.core with counter := s.core.next.counter, pc := s.core.next.pc }
      dbg := { s.dbg with mode := countedDown rem }
      replies := s.replies ++ [⟨.e, .done .unit⟩, ⟨.e, .done (.word (BitVec.ofNat 24 v))⟩, ⟨.e, .done .unit⟩,
        ⟨.e, .done .unit⟩] } := by
  refine (coreTxns_cons_done (busTxn_write_embc hmap v) _).trans ?_
  refine (coreTxns_cons_done (busTxn_read_embc (by exact hmap) k) _).trans ?_
  refine (coreTxns_nil_of_disabled (by exact hte) (by exact hhen)).trans ?_
  rw [State.dstepEnd_eq (by exact hm)]
  simp [State.doneE, State.reply, State.setMode, State.coreRetire]

/-- Settles O49: the first clause is `exec_dstep_of_accesses`, the second its instruction's run, `coreTxns_writeReadEmbc`. -/
theorem dstepExecutesOneInstruction : Obligations.DstepExecutesOneInstruction := by
  refine ⟨fun s u w rem hb he hm _ hpc hacc hexec hwe => exec_dstep_of_accesses hb he hm hpc hacc hexec hwe, ?_⟩
  intro s rem v k hmap hb hte hhen hm _ hpc htxns
  rw [exec_dstep_of_bound hb, dstepFromWait_runs hm hpc, htxns]
  exact coreTxns_writeReadEmbc hmap hte hhen hm v k

/-! ### A counted run (45_debugger.md R436) -/

/-- Whatever the instruction does on the bus, an instruction that ends leaves the debugger with the count fallen by one and the engine
as bound as it was. -/
theorem coreTxns_ends {l : List BusTxn} {s t : State} (he : s.e = { status := .live, held := none })
    (h : coreTxns l s = .next t) (hte : t.e = s.e) :
    t.dbg = { s.dbg with mode := modeAfter s.dbg.mode } ∧ t.bus.bound = s.bus.bound := by
  induction l generalizing s with
  | nil =>
    obtain ⟨_, u, -, hwithin, hu⟩ := (execAll_within s.coreRetire).outcome_ends he h hte
    obtain rfl := Host.Outcome.next.inj hu
    have hdbg : u.dbg = s.dbg := hwithin.dbg
    exact ⟨hdbg ▸ rfl, hwithin.bound⟩
  | cons x xs ih =>
    obtain ⟨r, u, -, hwithin, hu⟩ := (busTxn_within x s).outcome_ends he h hte
    have hue : (u.doneE r).e = s.e := hwithin.e
    obtain ⟨hdbg, hbound⟩ := ih (hue.trans he) hu (hte.trans hue.symm)
    have hudbg : (u.doneE r).dbg = s.dbg := hwithin.dbg
    exact ⟨hudbg ▸ hdbg, hbound.trans hwithin.bound⟩

/-- The mode of a counted run with `k` instructions to go. -/
def toGo (k : Nat) : DbgMode := if k = 0 then .stopped else .running (some k)

/-- A DSTEP of a counted run that meets no breakpoint and ends leaves one instruction less to go. -/
theorem exec_dstep_ends {s t : State} {k : Nat} (hb : s.bus.bound = true) (he : s.e = { status := .live, held := none })
    (hm : s.dbg.mode = toGo (k + 1)) (hpc : s.getPc ∉ s.dbg.bps) (h : exec .dstep s = .next t) (hte : t.e = s.e) :
    t.dbg = { s.dbg with mode := toGo k } ∧ t.bus.bound = true := by
  have hrun : s.dbg.mode = .running (some (k + 1)) := hm
  rw [exec_dstep_of_bound hb, dstepFromWait_runs hrun hpc] at h
  obtain ⟨hdbg, hbound⟩ := coreTxns_ends he h hte
  refine ⟨?_, hbound.trans hb⟩
  rw [hdbg, hrun, toGo]
  simp [modeAfter]

/-- A run of DSTEPs that begins with the core seen as `v`: its DSTEP ends, and the rest of the run goes on from there. -/
theorem dsteps_cons {v : CoreView} {vs : List CoreView} {s t : State} :
    dsteps (v :: vs) s = some t ↔ ∃ u, exec .dstep { s with core := v } = .next u ∧ u.e = s.e ∧ dsteps vs u = some t := by
  rw [dsteps]
  cases exec .dstep { s with core := v } <;> simp

/-- A run of DSTEPs no longer than what is left to go, which meets no breakpoint and ends, leaves its length less to go. -/
theorem dsteps_toGo {vs : List CoreView} {s t : State} {k : Nat} {bps : List Word} (hb : s.bus.bound = true)
    (he : s.e = { status := .live, held := none }) (hdbg : s.dbg = { mode := toGo (vs.length + k), bps := bps })
    (hpc : ∀ v ∈ vs, BitVec.ofNat 24 v.pc ∉ bps) (h : dsteps vs s = some t) :
    t.dbg = { mode := toGo k, bps := bps } ∧ t.bus.bound = true := by
  induction vs generalizing s with
  | nil =>
    obtain rfl := Option.some.inj h
    rw [hdbg, List.length_nil, Nat.zero_add]
    exact ⟨rfl, hb⟩
  | cons v vs ih =>
    obtain ⟨u, hu, hue, hrest⟩ := dsteps_cons.1 h
    rw [List.length_cons, Nat.add_right_comm] at hdbg
    have hfree : BitVec.ofNat 24 v.pc ∉ s.dbg.bps := by
      rw [hdbg]
      exact hpc v List.mem_cons_self
    obtain ⟨hudbg, hub⟩ := exec_dstep_ends (s := { s with core := v }) hb he (congrArg DbgState.mode hdbg) hfree hu hue
    refine ih hub (hue.trans he) ?_ (fun v' hv' => hpc v' (List.mem_cons_of_mem v hv')) hrest
    rw [hudbg, hdbg]

/-- Settles O51: CONT n leaves n instructions to go, `dsteps_toGo` counts them down, and at none to go the debugger is Stopped. -/
theorem countedRunLaw : Obligations.CountedRunLaw := by
  intro s s1 t n vs hn hb he hcont hlen hpc hrun
  obtain rfl := Host.Outcome.next.inj hcont
  obtain ⟨k, rfl⟩ := Nat.exists_eq_add_of_le hlen
  have hmode : contMode (vs.length + k) = toGo (vs.length + k) := by
    have hpos : vs.length + k ≠ 0 := Nat.ne_of_gt hn
    rw [contMode, toGo, if_neg hpos, if_neg hpos]
  obtain ⟨hdbg, hbound⟩ := dsteps_toGo (s := (s.setMode (contMode (vs.length + k))).reply s.issuer (.done .unit)) hb he
    (congrArg (DbgState.mk · s.dbg.bps) hmode) hpc hrun
  refine ⟨by rw [hdbg], ?_, fun hall v => ?_⟩
  · simp [hdbg, toGo]
  · have hk : k = 0 := Nat.left_eq_add.1 hall
    have hstop : t.dbg.mode = .stopped := by rw [hdbg, hk]; rfl
    exact exec_dstep_stopped hbound hstop

end Sys2Proof.Machine

/-! PROOFS. The ancillary registers ODBC and CHIDR (46_ancillary.md R471, R476, R477). -/

namespace Sys2Proof.Machine

open Sys2Proof.Claims

/-- Settles O12: the two rules of ODBC answer at once and leave the state. -/
theorem odbcReadsZeroAndStoresNothing : Obligations.OdbcReadsZeroAndStoresNothing :=
  fun _ _ _ hm => ⟨execBusRead_done (r := .odbc) hm rfl, execBusWrite_done (r := .odbc) hm rfl⟩

/-- The CHIDR word is the formula of 46_ancillary.md R471. -/
theorem chidrWord_toNat (i : Nat) : (chidrWord i).toNat = (0x720 ||| i <<< 16) % 2 ^ 24 :=
  BitVec.toNat_ofNat _ _

/-- An index of at most 8 bits stands whole in the CHIDR word: 0x720 lies below it, and nothing of it is cut off. -/
theorem chidrWord_toNat_of_lt {i : Nat} (hi : i < 2 ^ 8) : (chidrWord i).toNat = 0x720 + i * 0x10000 := by
  have hor : 0x720 ||| i <<< 16 = i * 2 ^ 16 + 0x720 := by
    rw [Nat.lor_comm, ← Nat.shiftLeft_add_eq_or_of_lt (by decide), Nat.shiftLeft_eq]
  rw [chidrWord_toNat, hor]
  omega

/-- Settles O13: the read rule answers the CHIDR word of `cfg.coreIndex` and leaves the state. -/
theorem chidrShowsCoreIndex : Obligations.ChidrShowsCoreIndex :=
  fun s _ hm => ⟨chidrWord s.cfg.coreIndex, execBusRead_done (r := .chidr) hm rfl, chidrWord_toNat _, chidrWord_toNat_of_lt⟩

end Sys2Proof.Machine

/-! PROOFS. The host streams (47_host_streams.md): the pushes and pops of hosts, what a shutdown does to a held transaction of E, and
BOOT. -/

namespace Sys2Proof.Machine

open Sys2Proof.Claims

/-! ### Pushes and pops (47_host_streams.md R500-R506) -/

/-- The three ways of a host's push, on the state of its queue (47_host_streams.md R501, R503, R506). -/
theorem hostPush_ways (id : QId) (v : Nat) (s : State) :
    ((s.queue id).shut = false → (s.queue id).items.length < Config.qcap →
      hostPush id v s = .next (State.reply s.issuer (.done .unit)
        (State.afterHostPush id (s.setQueue id { items := (s.queue id).items ++ [BitVec.ofNat 24 v], shut := false })))) ∧
    ((s.queue id).shut = false → Config.qcap ≤ (s.queue id).items.length →
      hostPush id v s = .next (s.holdHost s.issuer (.push id (BitVec.ofNat 24 v)))) ∧
    ((s.queue id).shut = true → hostPush id v s = .next (s.reply s.issuer (.done .endOfStream))) := by
  unfold hostPush hostRun hostTry trunc24
  refine ⟨fun ho hl => ?_, fun ho hl => ?_, fun hs => ?_⟩
  · simp only [Queue.push_ok _ _ ho hl]
  · simp only [Queue.push_block _ _ ho hl]
  · simp only [Queue.push_shut _ _ hs]

/-- The three ways of a host's pop, on the state of its queue (47_host_streams.md R502, R504, R506). -/
theorem hostPop_ways (id : QId) (s : State) :
    (∀ w ws, s.queue id = { items := w :: ws, shut := false } →
      hostPop id s = .next ((s.setQueue id { items := ws, shut := false }).reply s.issuer (.done (.word w)))) ∧
    (s.queue id = { items := [], shut := false } → hostPop id s = .next (s.holdHost s.issuer (.pop id))) ∧
    ((s.queue id).shut = true → hostPop id s = .next (s.reply s.issuer (.done .endOfStream))) := by
  unfold hostPop hostRun hostTry
  refine ⟨fun w ws hq => ?_, fun hq => ?_, fun hs => ?_⟩
  · simp only [hq, Queue.pop_ok _ w ws]
  · simp only [hq, Queue.pop_block]
  · simp only [Queue.pop_shut _ hs]

/-- Settles O38: the push with room is counted by the RX write contract (`exec_hpushShiRx_done`). -/
theorem hostPushShiRx : Obligations.HostPushShiRx := fun s v =>
  ⟨exec_hpushShiRx_done v, (hostPush_ways .shiRx v s).2⟩

/-- Settles O39: the four transactions are the host's push to the channel's queue, which no contract follows. -/
theorem hostPushEsaiIn : Obligations.HostPushEsaiIn := by
  intro s v c i hi
  have hexec : exec i s = hostPush (.inp c) v s := by
    rcases hi with ⟨rfl, rfl⟩ | ⟨rfl, rfl⟩ | ⟨rfl, rfl⟩ | ⟨rfl, rfl⟩ <;> rfl
  rw [hexec]
  exact hostPush_ways (.inp c) v s

/-- Settles O40: a host's pop touches nothing but its queue. -/
theorem hostPopShiTx : Obligations.HostPopShiTx := hostPop_ways .shiTx

/-- Settles O41: the six transactions are the host's pop from the channel's queue. -/
theorem hostPopEsaiOut : Obligations.HostPopEsaiOut := by
  intro s c i hi
  have hexec : exec i s = hostPop (.out c) s := by
    rcases hi with ⟨rfl, rfl⟩ | ⟨rfl, rfl⟩ | ⟨rfl, rfl⟩ | ⟨rfl, rfl⟩ | ⟨rfl, rfl⟩ | ⟨rfl, rfl⟩ <;> rfl
  rw [hexec]
  exact hostPop_ways (.out c) s

/-- Settles O42: the four rows have no queue to act on. -/
theorem channelOutOfRangeIsNoOp : Obligations.ChannelOutOfRangeIsNoOp := fun _ _ _ => ⟨rfl, rfl, rfl, rfl⟩

/-! ### After a shutdown (42_queue.md R279) -/

/-- Every queue is shut. -/
def State.AllShut (s : State) : Prop := ∀ id, (s.queue id).shut = true

/-- An update that leaves the queues leaves them shut. -/
theorem State.AllShut.of_queue {s t : State} (hs : s.AllShut) (h : ∀ id, t.queue id = s.queue id) : t.AllShut := fun id => by
  rw [h id]
  exact hs id

/-- No part of a transaction of E opens a queue. -/
theorem State.Within.allShut {s t : State} (h : s.Within t) (hs : s.AllShut) : t.AllShut :=
  hs.of_queue fun id => h.shut id (hs id)

/-- Wherever E is held, the primitive it is held at fails at once (42_queue.md R279). -/
theorem runPoint_of_allShut {s : State} (hs : s.AllShut) (p : HoldPoint) : runPoint p s = .abort s := by
  cases p with
  | hrxRead => rw [runPoint, readHrxOrdinary, popAt_abort _ (hs _), Res.map_abort]
  | hrxWrite v => rw [runPoint, writeHrxReg, pushAt_abort _ _ (hs _), Res.bind_abort, Res.map_abort]
  | htxWrite v => rw [runPoint, writeHtxReg, pushAt_abort _ _ (hs _), Res.bind_abort, Res.map_abort]
  | esaiOut c rest => rw [runPoint, esaiFrom, esaiPush, pushAt_abort _ _ (hs _), Res.bind_abort, Res.bind_abort, Res.map_abort]
  | bootCount => rw [runPoint, bootFromCount, popAt_abort _ (hs _), Res.bind_abort]
  | bootAddr n => rw [runPoint, bootFromAddr, popAt_abort _ (hs _), Res.bind_abort]
  | bootWord start next left => rw [runPoint, bootWords, popAt_abort _ (hs _), Res.bind_abort]

/-- An E held at a queue primitive, inside whatever transaction, ends in an abort (42_queue.md R279, 41_bus.md R240). -/
theorem resume_queue_of_allShut {s : State} {p : HoldPoint} {fr : Frame} (hs : s.AllShut)
    (he : s.e = { status := .live, held := some (.queue p fr) }) :
    resume .e s = .next (State.reply .e .abort { s with e := { status := .aborted, held := none } }) := by
  have hgo : resume .e s = frameOutcome fr (runPoint p s.freeE) := by simp [resume, he, runHeld]
  rw [hgo, runPoint_of_allShut (hs.of_queue s.freeE_queue)]
  cases fr <;> rfl

/-! ### BOOT (47_host_streams.md R507) -/

/-- The state in which BOOT has popped rxq down to the words `rest` and made the core writes `evs`. -/
def State.bootLoaded (rest : List Word) (evs : List Event) (s : State) : State :=
  { s with shi := { s.shi with rxq := { items := rest, shut := false } }, hist := s.hist ++ evs }

/-- The address after the next one, counted from the next. -/
theorem add_ofNat_succ (a : Word) (i : Nat) : a + BitVec.ofNat 24 (i + 1) = a + 1 + BitVec.ofNat 24 i := by
  rw [Nat.add_comm, BitVec.ofNat_add, ← BitVec.add_assoc]
  rfl

/-- The first core write of a boot, and those of the other words, one address further on. -/
theorem bootWrites_cons (a w : Word) (ws : List Word) :
    bootWrites a (w :: ws) = .pmemSet a w :: bootWrites (a + 1) ws := by
  unfold bootWrites
  rw [List.zipIdx_cons', List.map_cons, List.map_map, BitVec.add_zero]
  exact congrArg _ (List.map_congr_left fun p _ => congrArg (Event.pmemSet · p.1) (add_ofNat_succ a p.2))

/-- BOOT pops and writes the words there are, one after the other, and goes on with the rest of its count. -/
theorem bootWords_load (start next : Word) (ws rest : List Word) (k : Nat) {s : State}
    (hq : s.shi.rxq = { items := ws ++ rest, shut := false }) :
    bootWords start (ws.length + k) next s =
      bootWords start k (next + BitVec.ofNat 24 ws.length) (s.bootLoaded rest (bootWrites next ws)) := by
  induction ws generalizing next s with
  | nil =>
    have hs : s.bootLoaded rest (bootWrites next []) = s := by
      rw [State.bootLoaded, ← List.nil_append rest, ← hq]
      simp [bootWrites]
    rw [hs, List.length_nil, Nat.zero_add, BitVec.add_zero]
  | cons w ws ih =>
    rw [List.length_cons, Nat.add_right_comm, bootWords, popAt_done (id := .shiRx) _ hq, Res.bind_done, ih _ rfl, add_ofNat_succ,
      bootWrites_cons]
    simp [State.bootLoaded, State.pmemSet, State.event, State.setQueue]

/-- BOOT with its count, its address and no more words than the count in rxq (47_host_streams.md R507). -/
theorem bootFromCount_load {n a : Word} {ws rest : List Word} {k : Nat} {s : State} (hk : n.toNat = ws.length + k)
    (hq : s.shi.rxq = { items := n :: a :: (ws ++ rest), shut := false }) :
    bootFromCount s = bootWords a k (a + BitVec.ofNat 24 ws.length) (s.bootLoaded rest (bootWrites a ws)) := by
  rw [bootFromCount, popAt_done (id := .shiRx) _ hq, Res.bind_done, bootFromAddr, popAt_done (id := .shiRx) _ rfl,
    Res.bind_done, hk, bootWords_load (rest := rest) _ _ _ _ rfl]
  rfl

/-- BOOT of a bound engine (41_bus.md R239). -/
theorem exec_boot_of_bound {s : State} (hb : s.bus.bound = true) : exec .boot s = (bootFromCount s).endE :=
  if_pos hb

/-- Settles O52: with all its words in rxq BOOT comes to the end of its count and sets the program counter. -/
theorem bootLoadsAndStarts : Obligations.BootLoadsAndStarts := by
  intro s n a ws rest hb hlen hq
  rw [exec_boot_of_bound hb, bootFromCount_load (k := 0) hlen.symm hq]
  simp [bootWords, doneUnit, State.doneE, State.setPc, State.event, State.bootLoaded]

/-- The state in which BOOT waits for a word, with `left` more to go after it and the words `ws` written. -/
def State.bootWaiting (a : Word) (ws : List Word) (left : Nat) (s : State) : State :=
  (s.bootLoaded [] (bootWrites a ws)).holdE (.queue (.bootWord a (a + BitVec.ofNat 24 ws.length) left) .bare)

/-- BOOT with too few words in rxq holds with those written (47_host_streams.md R507, 00_scope.md R13). -/
theorem exec_boot_waits {s : State} {n a : Word} {ws : List Word} {left : Nat} (hb : s.bus.bound = true)
    (hleft : n.toNat = ws.length + (left + 1)) (hq : s.shi.rxq = { items := n :: a :: ws, shut := false }) :
    exec .boot s = .next (s.bootWaiting a ws left) := by
  rw [← List.append_nil ws] at hq
  rw [exec_boot_of_bound hb, bootFromCount_load hleft hq, bootWords, popAt_hold (id := .shiRx) _ rfl]
  rfl

/-- Settles O53: BOOT waits, TERMINATE shuts its queue, and the resumed BOOT aborts as every held part does. -/
theorem bootHoldsForMissingWords : Obligations.BootHoldsForMissingWords := by
  intro s n a ws hb hlt he hq
  obtain ⟨left, hleft⟩ := Nat.exists_eq_add_of_lt hlt
  have hrest : n.toNat - ws.length - 1 = left := by omega
  obtain ⟨u, hu, hshut, -, -, hframe⟩ := terminateShutsEveryQueue { s.bootWaiting a ws left with issuer := .s }
  have hallShut : (u.reply .s (.done .unit)).AllShut := fun id => by simp [hshut]
  have hheld : (u.reply .s (.done .unit)).e = { status := .live, held := some (.queue
      (.bootWord a (a + BitVec.ofNat 24 ws.length) left) .bare) } := by
    rw [hframe]
    simp [State.bootWaiting, State.bootLoaded, he]
  refine ⟨_, _, _, exec_boot_waits hb hleft hq, ?_, hu, resume_queue_of_allShut hallShut hheld, rfl, ?_, ?_⟩
  · simp [State.bootWaiting, State.bootLoaded, State.holdE, he, hrest]
  · rw [hframe]
    rfl
  · rw [hframe]
    rfl

end Sys2Proof.Machine

/-! PROOFS. The exceptions (60_exceptions.md): what an EXEC requests, and which transaction faults with what. -/

namespace Sys2Proof.Machine

open Sys2Proof.Claims

/-! ### The requests of an EXEC (60_exceptions.md R539, R540) -/

/-- The events are at most `n`, all of them interrupt requests. -/
def Requests (n : Nat) (evs : List Event) : Prop := evs.length ≤ n ∧ injectCount evs = evs.length

theorem Requests.nil (n : Nat) : Requests n [] := ⟨Nat.zero_le n, rfl⟩

theorem Requests.inject (vec : Nat) : Requests 1 [.inject vec] := ⟨Nat.le_refl 1, rfl⟩

theorem Requests.append {m n : Nat} {evs evs' : List Event} (h : Requests m evs) (h' : Requests n evs') :
    Requests (m + n) (evs ++ evs') := by
  obtain ⟨hlen, hcount⟩ := h
  obtain ⟨hlen', hcount'⟩ := h'
  refine ⟨?_, ?_⟩
  · rw [List.length_append]
    exact Nat.add_le_add hlen hlen'
  · rw [List.length_append, ← hcount, ← hcount']
    exact List.countP_append

theorem Requests.mono {m n : Nat} {evs : List Event} (h : Requests m evs) (hmn : m ≤ n) : Requests n evs :=
  ⟨h.1.trans hmn, h.2⟩

/-- The SHI's tick requests at most once (44_shi.md R380). -/
theorem requests_shiRequests (s : State) : Requests 1 (shiRequests s) := by
  unfold shiRequests
  split
  next => exact .nil 1
  next =>
    split
    next =>
      split
      next => exact .inject _
      next => split <;> [exact .inject _; exact .nil 1]
    next => split <;> [exact .inject _; exact .nil 1]

/-- The ESAI's transfer tick requests at most twice (43_esai.md R316). -/
theorem requests_esaiRequests (s : State) : Requests 2 (esaiRequests s) := by
  refine Requests.append (m := 1) (n := 1) ?_ ?_
  · split <;> [exact .inject _; exact .nil 1]
  · split <;> [exact .inject _; exact .nil 1]

/-! ### All that an EXEC's fan-out can do (41_bus.md R236, R240) -/

/-- All that the ESAI's `exec()` can do: it ends, with the requests of a tick or with none, it aborts, or it holds at an open output
queue; it changes nothing but the ESAI (43_esai.md R310, R314, R315). -/
theorem esaiExec_ways (rest : List Periph) (s : State) : ∃ es : EsaiState,
    (∃ evs, Requests 2 evs ∧ esaiExec rest s = .done () { s with esai := es, hist := s.hist ++ evs }) ∨
    esaiExec rest s = .abort { s with esai := es } ∨
    ∃ c, (s.queue (.out c)).shut = false ∧ esaiExec rest s = .hold (.esaiOut c rest) { s with esai := es } := by
  cases s.execWay with
  | idle hte => exact ⟨s.esai, .inl ⟨[], .nil 2, by rw [List.append_nil]; exact esaiExec_of_te_eq_zero hte rest⟩⟩
  | below hte hlt => exact ⟨_, .inl ⟨[], .nil 2, by rw [List.append_nil]; exact esaiExec_below rest hte hlt⟩⟩
  | tick hte hge ho hi =>
    obtain ⟨_, _, _, h, -⟩ := esaiExec_tick rest hte hge ho hi
    exact ⟨_, .inl ⟨_, requests_esaiRequests s, h⟩⟩
  | stopsAtOutput c hge hstop =>
    obtain ⟨_, h, -⟩ := esaiExec_stopsAtOutput rest hge hstop
    cases hs : s.esai.outq[c].shut with
    | true => exact ⟨_, .inr (.inl (h.trans (if_pos hs)))⟩
    | false => exact ⟨_, .inr (.inr ⟨c, hs, h.trans (if_neg (Bool.eq_false_iff.1 hs))⟩)⟩
  | stopsAtInput c hte hge ho hstop =>
    obtain ⟨_, _, _, h, -⟩ := esaiExec_stopsAtInput rest hte hge ho hstop
    exact ⟨_, .inr (.inl h)⟩

/-- The state with the SHI and the ESAI replaced and with further events: no more than that is changed by EXEC's fan-out. -/
def State.fannedOut (sh : ShiState) (es : EsaiState) (evs : List Event) (s : State) : State :=
  { s with shi := sh, esai := es, hist := s.hist ++ evs }

/-- All that EXEC's fan-out can do: it ends, aborts or holds at an open output queue, with at most three requests. -/
theorem execAll_ways (s : State) : ∃ (sh : ShiState) (es : EsaiState) (evs : List Event), Requests 3 evs ∧
    (execAll s = .done () (s.fannedOut sh es evs) ∨ execAll s = .abort (s.fannedOut sh es evs) ∨
      ∃ c rest, (s.queue (.out c)).shut = false ∧ execAll s = .hold (.esaiOut c rest) (s.fannedOut sh es evs)) := by
  rw [execAll_eq]
  cases shiFirst s.cfg.order with
  | true =>
    have hshi := requests_shiRequests s
    rw [if_pos rfl]
    obtain ⟨es, ⟨evs, hevs, h⟩ | h | ⟨c, hc, h⟩⟩ := esaiExec_ways (afterEsai s.cfg.order) s.shiExec <;>
      rw [h, State.shiExec_eq]
    · exact ⟨shiTicked s, es, _, hshi.append hevs, .inl (by simp [State.fannedOut])⟩
    · exact ⟨shiTicked s, es, _, hshi.mono (by decide), .inr (.inl rfl)⟩
    · exact ⟨shiTicked s, es, _, hshi.mono (by decide), .inr (.inr ⟨c, _, by simpa using hc, rfl⟩)⟩
  | false =>
    have hkeep : ∀ es, s.fannedOut s.shi es [] = { s with esai := es } := by simp [State.fannedOut]
    rw [if_neg Bool.false_ne_true]
    obtain ⟨es, ⟨evs, hevs, h⟩ | h | ⟨c, hc, h⟩⟩ := esaiExec_ways (afterEsai s.cfg.order) s <;> rw [h]
    · rw [Res.bind_done, if_neg Bool.false_ne_true, State.shiExec_eq, List.append_assoc]
      exact ⟨_, es, _, hevs.append (requests_shiRequests _), .inl rfl⟩
    · exact ⟨s.shi, es, [], .nil 3, .inr (.inl (by rw [hkeep]; rfl))⟩
    · exact ⟨s.shi, es, [], .nil 3, .inr (.inr ⟨c, _, hc, by rw [hkeep]; rfl⟩)⟩

/-- Settles O33: the requests of an EXEC are those of its fan-out, however that goes. -/
theorem execRequestsAtMostThree : Obligations.ExecRequestsAtMostThree := by
  intro s t h
  rw [exec_exec_of_bound (bound_of_exec_exec h)] at h
  obtain ⟨sh, es, evs, ⟨hlen, hcount⟩, hway | hway | ⟨c, rest, -, hway⟩⟩ := execAll_ways s <;>
    · rw [hway] at h
      obtain rfl := Host.Outcome.next.inj h
      exact ⟨evs, rfl, hlen, hcount⟩

/-! ### All that a part of a transaction of E can do (00_scope.md R13) -/

/-- What a part of a transaction of E gets to: it is done, it aborts, it holds at an open queue, or it is a bit-test read of an empty
HRX, as `peeks` says, and faults. -/
inductive Res.PartWay {α : Type} (s : State) (peeks : Prop) : Res α → Prop
  | done (a : α) (t : State) : PartWay s peeks (.done a t)
  | abort (t : State) : PartWay s peeks (.abort t)
  | hold (p : HoldPoint) (t : State) (id : QId) (hopen : (s.queue id).shut = false) : PartWay s peeks (.hold p t)
  | peekEmpty (h : peeks) : PartWay s peeks (.fault .peekEmpty)

theorem Res.PartWay.mono {α : Type} {s : State} {P Q : Prop} {r : Res α} (h : r.PartWay s P) (hPQ : P → Q) :
    r.PartWay s Q := by
  cases h with
  | done a t => exact .done a t
  | abort t => exact .abort t
  | hold p t id hopen => exact .hold p t id hopen
  | peekEmpty h => exact .peekEmpty (hPQ h)

theorem Res.PartWay.map {α β : Type} {s : State} {P : Prop} {r : Res α} (g : α → β) (h : r.PartWay s P) :
    (r.map g).PartWay s P := by
  cases h with
  | done a t => exact .done (g a) t
  | abort t => exact .abort t
  | hold p t id hopen => exact .hold p t id hopen
  | peekEmpty h => exact .peekEmpty h

/-- A part and what comes after it: a queue at which that holds was open before, for no part opens one. -/
theorem Res.PartWay.bind {α β : Type} {s : State} {P : Prop} {r : Res α} {k : α → State → Res β} (h : r.PartWay s P)
    (hwithin : r.Within s) (hk : ∀ a t, (k a t).PartWay t P) : (r.bind k).PartWay s P := by
  cases h with
  | done a t =>
    have open_before (id : QId) (ho : (t.queue id).shut = false) : (s.queue id).shut = false := by
      have hsame : (s.queue id).shut = true → t.queue id = s.queue id := State.Within.shut hwithin id
      by_contra hs
      rw [hsame (Bool.eq_true_of_not_eq_false hs)] at ho
      exact hs ho
    rw [Res.bind_done]
    have hrest := hk a t
    revert hrest
    generalize k a t = rest
    rintro (⟨b, u⟩ | ⟨u⟩ | ⟨p, u, id, hopen⟩ | ⟨h⟩)
    · exact .done b u
    · exact .abort u
    · exact .hold p u id (open_before id hopen)
    · exact .peekEmpty h
  | abort t => exact .abort t
  | hold p t id hopen => exact .hold p t id hopen
  | peekEmpty h => exact .peekEmpty h

theorem popAt_partWay (p : HoldPoint) (id : QId) (s : State) (P : Prop) : (popAt p id s).PartWay s P := by
  rcases popAt_cases p id s with ⟨w, ws, -, h⟩ | ⟨hq, h⟩ | ⟨-, h⟩ <;> rw [h]
  · exact .done _ _
  · exact .hold p s id (by rw [hq])
  · exact .abort s

/-- A push and an update after it. -/
theorem pushAt_bind_partWay (p : HoldPoint) (id : QId) (v : Word) (s : State) (P : Prop) (count : State → State) :
    ((pushAt p id v s).bind fun _ t => .done () (count t)).PartWay s P := by
  rcases pushAt_cases p id v s with ⟨-, -, h⟩ | ⟨ho, -, h⟩ | ⟨-, h⟩ <;> rw [h]
  · exact .done _ _
  · exact .hold p s id ho
  · exact .abort s

/-- HRX is the one register whose read can stop, and the one whose read can fault (44_shi.md R384, R385). -/
theorem readReg_partWay (r : Reg) (k : Kind) (s : State) :
    (readReg r k s).PartWay s (r = .hrx ∧ k = .bitTest ∧ s.shi.rxq.items = []) := by
  cases r with
  | hrx =>
    cases k with
    | ordinary => exact popAt_partWay .hrxRead .shiRx s _
    | bitTest =>
      show (readHrxBitTest s).PartWay s _
      rcases readHrxBitTest_cases s with ⟨w, ws, -, h⟩ | ⟨hq, h⟩ <;> rw [h]
      · exact .done w s
      · exact .peekEmpty ⟨rfl, rfl, hq⟩
  | _ => exact .done _ _

/-- HRX and HTX are the registers whose write can stop; no write faults (44_shi.md R386, R387). -/
theorem writeReg_partWay (r : Reg) (v : Word) (s : State) : (writeReg r v s).PartWay s False := by
  cases r with
  | hrx => exact pushAt_bind_partWay (.hrxWrite v) .shiRx v s False State.countRx
  | htx => exact pushAt_bind_partWay (.htxWrite v) .shiTx v s False State.countTx
  | tx c =>
    show (writeTxReg c v s).PartWay s False
    unfold writeTxReg
    split <;> exact .done _ _
  | _ => exact .done _ _

/-- All that a bus read can do with the documented map (41_bus.md R232, R233). -/
theorem busRead_partWay {s : State} (hm : s.Mapped) (a : Area) (off : Word) (k : Kind) :
    (busRead a off k s).PartWay s ((a, off) = (.x, 0x94#24) ∧ k = .bitTest ∧ s.shi.rxq.items = []) := by
  cases h : regAt a off with
  | none =>
    rw [busRead_unmapped hm h]
    exact .done _ _
  | some r =>
    rw [busRead_mapped hm h]
    refine (readReg_partWay r k s).mono ?_
    rintro ⟨rfl, hpeek⟩
    exact ⟨(regAddr_of_regAt h).symm, hpeek⟩

/-- All that a bus write can do (41_bus.md R234, R235). -/
theorem busWrite_partWay (a : Area) (off : Word) (v : Nat) (s : State) : (busWrite a off v s).PartWay s False := by
  unfold busWrite
  split
  · exact writeReg_partWay _ _ s
  · exact .done _ _

/-- All that a bus access of the core's instruction can do (60_exceptions.md R546). -/
theorem busTxn_partWay {s : State} (hm : s.Mapped) (x : BusTxn) :
    (busTxn x s).PartWay s (x = .read .x 0x94#24 .bitTest ∧ s.shi.rxq.items = []) := by
  cases x with
  | read a off k =>
    refine ((busRead_partWay hm a off k).map _).mono ?_
    rintro ⟨⟨⟩, rfl, hq⟩
    exact ⟨rfl, hq⟩
  | write a off v => exact ((busWrite_partWay a off v s).map _).mono False.elim

/-- All that EXEC's fan-out can do (41_bus.md R236, R240). -/
theorem execAll_partWay (s : State) : (execAll s).PartWay s False := by
  obtain ⟨sh, es, evs, -, h | h | ⟨c, rest, hopen, h⟩⟩ := execAll_ways s <;> rw [h]
  · exact .done () _
  · exact .abort _
  · exact .hold _ _ (.out c) hopen

/-- All that BOOT's words can do (47_host_streams.md R507). -/
theorem bootWords_partWay (start : Word) (left : Nat) (next : Word) (s : State) :
    (bootWords start left next s).PartWay s False := by
  induction left generalizing next s with
  | zero => exact .done _ _
  | succ left ih =>
    refine (popAt_partWay _ _ s False).bind (popAt_within _ _ s) fun w t => ?_
    exact (Res.PartWay.done () (t.pmemSet next w)).bind (k := fun _ => bootWords start left (next + 1)) (.event t _)
      fun _ => ih (next + 1)

/-- All that BOOT can do (47_host_streams.md R507). -/
theorem bootFromCount_partWay (s : State) : (bootFromCount s).PartWay s False :=
  (popAt_partWay _ _ s False).bind (popAt_within _ _ s) fun _ t =>
    (popAt_partWay _ _ t False).bind (popAt_within _ _ t) fun a => bootWords_partWay a _ a

/-! ### Which transaction faults with what (60_exceptions.md R533) -/

/-- The outcome is no fault but one of which `P` holds. -/
def FaultsOnlyAs (P : Fault → Prop) (o : Out) : Prop := ∀ f, o = .fault f → P f

theorem faultsOnlyAs_next (P : Fault → Prop) (s : State) : FaultsOnlyAs P (.next s) := by rintro f ⟨⟩

theorem faultsOnlyAs_fault {P : Fault → Prop} {f : Fault} (h : P f) : FaultsOnlyAs P (.fault f) := by
  rintro _ ⟨⟩
  exact h

/-- A stretch of E faults where its part does or where what follows a part that is done does. -/
theorem Res.PartWay.outcome_faultsOnlyAs {α : Type} {s : State} {peeks : Prop} {r : Res α} {fr : Frame} {k : α → State → Out}
    {P : Fault → Prop} (h : r.PartWay s peeks) (hpeek : peeks → P .peekEmpty)
    (hk : ∀ a t, r = .done a t → FaultsOnlyAs P (k a t)) : FaultsOnlyAs P (r.outcome fr k) := by
  cases h with
  | done a t => exact hk a t rfl
  | abort t => exact faultsOnlyAs_next P _
  | hold p t => exact faultsOnlyAs_next P _
  | peekEmpty h => exact faultsOnlyAs_fault (hpeek h)

theorem Res.PartWay.endE_faultsOnlyAs {s : State} {peeks : Prop} {r : Res Result} {P : Fault → Prop}
    (h : r.PartWay s peeks) (hpeek : peeks → P .peekEmpty) : FaultsOnlyAs P r.endE :=
  h.outcome_faultsOnlyAs hpeek fun _ _ _ => faultsOnlyAs_next P _

theorem faultsOnlyAs_ifBound {P : Fault → Prop} {s : State} {o : Out} (ho : FaultsOnlyAs P o)
    (hunbound : s.bus.bound = false → P .unboundCore) : FaultsOnlyAs P (if s.bus.bound then o else .fault .unboundCore) := by
  split
  next => exact ho
  next hb => exact faultsOnlyAs_fault (hunbound (Bool.eq_false_iff.2 hb))

/-- The core's instruction faults only where a bit-test read of HRX is one of its accesses (60_exceptions.md R533, R546). -/
theorem coreTxns_faultsOnlyAs (l : List BusTxn) {s : State} (hm : s.Mapped) :
    FaultsOnlyAs (fun f => f = .peekEmpty ∧ .read .x 0x94#24 .bitTest ∈ l) (coreTxns l s) := by
  induction l generalizing s with
  | nil => exact (execAll_partWay s.coreRetire).outcome_faultsOnlyAs False.elim fun _ _ _ => faultsOnlyAs_next _ _
  | cons x xs ih =>
    refine (busTxn_partWay hm x).outcome_faultsOnlyAs (fun h => ⟨rfl, h.1 ▸ List.mem_cons_self⟩) fun r t hdone f hf => ?_
    have hwithin := busTxn_within x s
    rw [hdone] at hwithin
    have hmt : (t.doneE r).Mapped := (State.Within.map hwithin).trans hm
    exact (ih hmt f hf).imp_right (List.mem_cons_of_mem x)

theorem dstepFromWait_faultsOnlyAs {s : State} (hm : s.Mapped) :
    FaultsOnlyAs (fun f => f = .peekEmpty ∧ .read .x 0x94#24 .bitTest ∈ s.core.next.txns) (dstepFromWait s) := by
  unfold dstepFromWait
  split
  · exact faultsOnlyAs_next _ _
  · split
    · exact faultsOnlyAs_next _ _
    · exact coreTxns_faultsOnlyAs _ hm

theorem hostRun_faultsOnlyAs (P : Fault → Prop) (ag : Agent) (op : HostOp) (s : State) : FaultsOnlyAs P (hostRun ag op s) := by
  unfold hostRun
  split <;> exact faultsOnlyAs_next P _

/-- The faults of a transaction (60_exceptions.md R533): UnboundCore of EXEC, DSTEP and BOOT before the first RESET, and PeekEmpty of
a DSTEP whose instruction makes a bit-test read of HRX and of such a read by E. -/
def Instr.MayFault (i : Instr) (s : State) (f : Fault) : Prop :=
  f = .unboundCore ∧ s.bus.bound = false ∧ (i = .exec ∨ i = .dstep ∨ i = .boot) ∨
  f = .peekEmpty ∧ (i = .dstep ∧ .read .x 0x94#24 .bitTest ∈ s.core.next.txns ∨ i = .readBtHrx ∧ s.shi.rxq.items = [])

/-- A bus read at another pair than HRX's does not fault (41_bus.md R232). -/
theorem execBusRead_faultsOnlyAs (P : Fault → Prop) {s : State} {a : Area} {off : Word} {k : Kind} (hm : s.Mapped)
    (hne : ¬ ((a, off) = (.x, 0x94#24) ∧ k = .bitTest)) : FaultsOnlyAs P (execBusRead a off k s) :=
  ((busRead_partWay hm a off k).map _).endE_faultsOnlyAs fun h => absurd ⟨h.1, h.2.1⟩ hne

/-- No bus write faults (41_bus.md R234). -/
theorem execBusWrite_faultsOnlyAs (P : Fault → Prop) (a : Area) (off : Word) (v : Nat) (s : State) :
    FaultsOnlyAs P (execBusWrite a off v s) :=
  ((busWrite_partWay a off v s).map _).endE_faultsOnlyAs False.elim

/-- No transaction has a fault but these (60_exceptions.md R533). -/
theorem exec_faultsOnlyAs {s : State} {i : Instr} (hm : s.Mapped) (hwf : i.wf = true) :
    FaultsOnlyAs (Instr.MayFault i s) (exec i s) := by
  cases i with
  | exec =>
    exact faultsOnlyAs_ifBound (((execAll_partWay s).map _).endE_faultsOnlyAs False.elim) fun hb => .inl ⟨rfl, hb, .inl rfl⟩
  | boot =>
    exact faultsOnlyAs_ifBound ((bootFromCount_partWay s).endE_faultsOnlyAs False.elim) fun hb =>
      .inl ⟨rfl, hb, .inr (.inr rfl)⟩
  | dstep =>
    refine faultsOnlyAs_ifBound (fun f hf => ?_) fun hb => .inl ⟨rfl, hb, .inr (.inl rfl)⟩
    obtain ⟨rfl, hmem⟩ := dstepFromWait_faultsOnlyAs hm f hf
    exact .inr ⟨rfl, .inl ⟨rfl, hmem⟩⟩
  | readBtHrx => exact ((busRead_partWay hm .x 0x94#24 .bitTest).map _).endE_faultsOnlyAs fun h => .inr ⟨rfl, .inr ⟨rfl, h.2.2⟩⟩
  | readHrx => exact execBusRead_faultsOnlyAs _ hm (by rintro ⟨-, ⟨⟩⟩)
  | readBacking a k off =>
    refine execBusRead_faultsOnlyAs _ hm ?_
    rintro ⟨⟨⟩, -⟩
    exact absurd (show (regAt .x 0x94#24).isNone = true from hwf) (by decide)
  | reset | terminate | bkptSet _ | bkptDel _ | cont _ | hpushEsaiIn4to7 _ _ | hpushEsaiIn8to15 _ _ | hpopEsaiOut6to7 _
  | hpopEsaiOut8to15 _ => exact faultsOnlyAs_next _ _
  | hpushShiRx _ | hpushEsaiIn0 _ | hpushEsaiIn1 _ | hpushEsaiIn2 _ | hpushEsaiIn3 _ | hpopShiTx | hpopEsaiOut0 | hpopEsaiOut1
  | hpopEsaiOut2 | hpopEsaiOut3 | hpopEsaiOut4 | hpopEsaiOut5 => exact hostRun_faultsOnlyAs _ s.issuer _ s
  | readPctl _ | readHckr _ | readHcsr _ | readHsar _ | readHtx _ | readTx0 _ | readTx1 _ | readTx2 _ | readTx3 _ | readTx4 _
  | readTx5 _ | readRx0 _ | readRx1 _ | readRx2 _ | readRx3 _ | readSaisr _ | readSaicr _ | readTcr _ | readTccr _ | readRcr _
  | readRccr _ | readChidr _ | readOdbc _ | readEmbc _ =>
    exact execBusRead_faultsOnlyAs _ hm (fun h => absurd h.1 (by decide))
  | _ => exact execBusWrite_faultsOnlyAs _ _ _ _ s

/-- A bit-test read of an empty HRX, as an access of the core's instruction (44_shi.md R385). -/
theorem busTxn_readBtHrx_fault {s : State} (hm : s.Mapped) (hq : s.shi.rxq.items = []) :
    busTxn (.read .x 0x94#24 .bitTest) s = .fault .peekEmpty := by
  have hread : readReg .hrx .bitTest s = .fault .peekEmpty := by
    rcases readHrxBitTest_cases s with ⟨w, ws, hw, -⟩ | ⟨-, h⟩
    · rw [hq] at hw
      cases hw
    · exact h
  rw [busTxn, busRead_mapped hm (r := .hrx) (by decide), hread, Res.map_fault]

/-- An instruction whose first accesses all end goes on with the others (`coreTxns_of_accesses` has none to come), and the map is as
it was. -/
theorem coreTxns_append_of_accesses {l : List BusTxn} (rest : List BusTxn) {s u : State}
    (he : s.e = { status := .live, held := none }) (h : accesses l s = some u) :
    coreTxns (l ++ rest) s = coreTxns rest u ∧ u.bus.map = s.bus.map := by
  induction l generalizing s with
  | nil =>
    obtain rfl := Option.some.inj h
    exact ⟨rfl, rfl⟩
  | cons x xs ih =>
    obtain ⟨t, ht, hte, hrest⟩ := accesses_cons.1 h
    rw [exec_accessInstr] at ht
    obtain ⟨r, v, hdone, hwithin, hv⟩ := (busTxn_within x s).outcome_ends he ht hte
    obtain rfl := Host.Outcome.next.inj hv
    obtain ⟨hrun, hmap⟩ := ih (hte.trans he) hrest
    exact ⟨(coreTxns_cons_done hdone (xs ++ rest)).trans hrun, hmap.trans hwithin.map⟩

/-- A DSTEP whose instruction comes to a bit-test read of an empty HRX faults there. -/
theorem exec_dstep_peekEmpty {s u : State} {rem : Option Nat} {earlier rest : List BusTxn} (hm : s.Mapped)
    (hb : s.bus.bound = true) (he : s.e = { status := .live, held := none }) (hmode : s.dbg.mode = .running rem)
    (hpc : s.getPc ∉ s.dbg.bps) (htxns : s.core.next.txns = earlier ++ .read .x 0x94#24 .bitTest :: rest)
    (hacc : accesses earlier s = some u) (hq : u.shi.rxq.items = []) : exec .dstep s = .fault .peekEmpty := by
  obtain ⟨hrun, hmap⟩ := coreTxns_append_of_accesses (.read .x 0x94#24 .bitTest :: rest) he hacc
  rw [exec_dstep_of_bound hb, dstepFromWait_runs hmode hpc, htxns, hrun, coreTxns,
    busTxn_readBtHrx_fault (hmap.trans hm) hq, Res.outcome_fault]

/-- EXEC, DSTEP and BOOT of an engine that is not bound (41_bus.md R239). -/
theorem exec_unbound {s : State} {i : Instr} (hb : s.bus.bound = false) (hi : i = .exec ∨ i = .dstep ∨ i = .boot) :
    exec i s = .fault .unboundCore := by
  rcases hi with rfl | rfl | rfl <;> exact if_neg (Bool.eq_false_iff.1 hb)

/-- Settles O27: `exec_faultsOnlyAs` says which faults there are at most, and each of them is raised. -/
theorem faultsAreExactlyThese : Obligations.FaultsAreExactlyThese := by
  refine ⟨fun s i hm hwf => ⟨⟨fun h => ?_, fun ⟨hb, hi⟩ => exec_unbound hb hi⟩, fun h => ?_, ?_, fun h => ?_, exec_notRefused i s⟩,
    fun s u rem _ _ hm hb he hmode hpc htxns hacc hq => exec_dstep_peekEmpty hm hb he hmode hpc htxns hacc hq⟩
  · obtain ⟨-, hunbound⟩ | ⟨⟨⟩, -⟩ := exec_faultsOnlyAs hm hwf _ h
    exact hunbound
  · obtain ⟨⟨⟩, -⟩ | ⟨-, hpeek⟩ := exec_faultsOnlyAs hm hwf _ h
    exact hpeek
  · rintro rfl hq
    exact (hrxBitTestPeeks s hm).2 hq
  · obtain ⟨⟨⟩, -⟩ | ⟨⟨⟩, -⟩ := exec_faultsOnlyAs hm hwf _ h

end Sys2Proof.Machine

/-! PROOFS. Hazards (70_reset_and_hazards.md): the teardown, after which nobody is held. -/

namespace Sys2Proof.Machine

open Sys2Proof.Claims

/-! ### With every queue shut (42_queue.md R279) -/

/-- A host held in a push or a pop ends in end-of-stream (47_host_streams.md R506). -/
theorem hostRun_of_allShut {s : State} (hs : s.AllShut) (ag : Agent) (op : HostOp) :
    hostRun ag op s = .next (s.reply ag (.done .endOfStream)) := by
  cases op with
  | push id v => simp only [hostRun, hostTry, Queue.push_shut _ v (hs id)]
  | pop id => simp only [hostRun, hostTry, Queue.pop_shut _ (hs id)]

theorem resume_host_of_allShut {s : State} {n : Nat} {op : HostOp} (hs : s.AllShut) (h : s.hosts.lookup (.h n) = some op) :
    resume (.h n) s = .next ((s.freeHost (.h n)).reply (.h n) (.done .endOfStream)) := by
  have hgo : resume (.h n) s = hostRun (.h n) op (s.freeHost (.h n)) := by simp [resume, h]
  rw [hgo, hostRun_of_allShut (hs.of_queue (s.freeHost_queue (.h n)))]

/-- No part of a transaction of E holds while every queue is shut. -/
theorem Res.PartWay.ne_hold {α : Type} {s : State} {P : Prop} {r : Res α} (h : r.PartWay s P) (hs : s.AllShut) (p : HoldPoint)
    (t : State) : r ≠ .hold p t := by
  rintro rfl
  cases h with
  | hold p t id hopen => simp [hs id] at hopen

/-- E is Aborted and free, or it is Live and free, the core past the instruction it was at in `s` and that counted by the debugger
(45_debugger.md R434). -/
def State.Released (s x : State) : Prop :=
  x.e = { status := .aborted, held := none } ∨
    (x.e = { status := .live, held := none } ∧ x.dbg = { s.dbg with mode := modeAfter s.dbg.mode } ∧
      x.core = { s.core with counter := s.core.next.counter, pc := s.core.next.pc })

theorem State.Released.of_eq {s t x : State} (h : t.Released x) (hdbg : t.dbg = s.dbg) (hcore : t.core = s.core) :
    s.Released x := by
  rw [State.Released, ← hdbg, ← hcore]
  exact h

/-- An abort of a free E releases it (41_bus.md R240). -/
theorem State.released_abortE (s : State) {t : State} (he : t.e = { status := .live, held := none }) : s.Released t.abortE :=
  .inl (by simp [he])

/-- The EXEC of an instruction releases E while every queue is shut. -/
theorem coreTxns_nil_released {s : State} (hs : s.AllShut) (he : s.e = { status := .live, held := none }) :
    ∃ x, coreTxns [] s = .next x ∧ s.Released x := by
  obtain ⟨sh, es, evs, -, h | h | ⟨c, rest, hopen, -⟩⟩ := execAll_ways s.coreRetire
  · exact ⟨_, coreTxns_nil_done h, .inr ⟨he, rfl, rfl⟩⟩
  · exact ⟨(s.coreRetire.fannedOut sh es evs).abortE, by rw [coreTxns, h]; rfl, s.released_abortE he⟩
  · simp [hs (.out c)] at hopen

/-- The core's instruction releases E while every queue is shut, or it faults at a bit-test read of HRX. -/
theorem coreTxns_released {l : List BusTxn} {s : State} (hm : s.Mapped) (hs : s.AllShut)
    (he : s.e = { status := .live, held := none }) :
    coreTxns l s = .fault .peekEmpty ∧ .read .x 0x94#24 .bitTest ∈ l ∨ ∃ x, coreTxns l s = .next x ∧ s.Released x := by
  induction l generalizing s with
  | nil => exact .inr (coreTxns_nil_released hs he)
  | cons x xs ih =>
    have hway := busTxn_partWay hm x
    have hwithin := busTxn_within x s
    have hcore := busTxn_keepsCore x s
    rw [coreTxns]
    revert hway hwithin hcore
    cases busTxn x s with
    | done r t =>
      intro hway hwithin hcore
      have hst : s.Within t := hwithin
      have hfree : (t.doneE r).e = { status := .live, held := none } := hst.e.trans he
      have hshut : (t.doneE r).AllShut := (hst.allShut hs).of_queue (t.doneE_queue r)
      rcases ih (s := t.doneE r) (hst.map.trans hm) hshut hfree with ⟨hfault, hmem⟩ | ⟨y, hy, hrel⟩
      · exact .inl ⟨hfault, List.mem_cons_of_mem x hmem⟩
      · exact .inr ⟨y, hy, hrel.of_eq hst.dbg hcore⟩
    | hold p t => exact fun hway _ _ => absurd rfl (hway.ne_hold hs p t)
    | abort t => exact fun _ hwithin _ => .inr ⟨_, rfl, s.released_abortE ((State.Within.e hwithin).trans he)⟩
    | fault f =>
      rintro (_ | _ | _ | ⟨rfl, -⟩) - -
      exact .inl ⟨rfl, List.mem_cons_self⟩

/-! ### TEARDOWN (30_encoding.md R163, 70_reset_and_hazards.md R590) -/

/-- What the two steps of TEARDOWN leave, with `rest` of the schedule to go: every queue is shut with its words and the debugger is
running, and who is held is as before. -/
structure State.TornDown (rest : List Entry) (s u : State) : Prop where
  sched : u.sched = rest
  dbg : u.dbg = { s.dbg with mode := .running none }
  queues : ∀ id, u.queue id = { items := (s.queue id).items, shut := true }
  e : u.e = s.e
  hosts : u.hosts = s.hosts
  core : u.core = s.core
  map : u.bus.map = s.bus.map

/-- TEARDOWN is TERMINATE and then CONT, by S (30_encoding.md R163). -/
theorem teardown_steps {s : State} {rest : List Entry} (hs : s.sched = (pseudoExpand .teardown).map asmEntry ++ rest)
    (hfree : s.hostFree .s = true) : ∃ t u, step s = .next t ∧ step t = .next u ∧ s.TornDown rest u := by
  have hentries : (pseudoExpand .teardown).map asmEntry = [.issue .s 0x40000000#32 0, .issue .s 0x90000000#32 0] := by decide
  rw [hentries] at hs
  have hterminate := step_issue (i := .terminate) hs rfl rfl hfree
  obtain ⟨t, ht, hqueues, -, -, hframe⟩ := terminateShutsEveryQueue
    { s with sched := .issue .s 0x90000000#32 0 :: rest, issuer := .s }
  have hcont : step (t.reply .s (.done .unit)) = .next (State.reply .s (.done .unit)
      (State.setMode (.running none) { t.reply .s (.done .unit) with sched := rest, issuer := .s })) :=
    step_issue (i := .cont 0) (by rw [hframe]; rfl) rfl rfl (by rw [hframe]; exact hfree)
  refine ⟨_, _, hterminate.trans ht, hcont, ?_⟩
  have hq : ∀ id, t.queue id = { items := (s.queue id).items, shut := true } := fun id => by
    rw [hqueues]
    cases id <;> rfl
  exact {
    sched := rfl
    dbg := by rw [hframe]; rfl
    queues := fun id => by rw [← hq id]; cases id <;> rfl
    e := by rw [hframe]; rfl
    hosts := by rw [hframe]; rfl
    core := by rw [hframe]; rfl
    map := by rw [hframe]; rfl }

theorem State.TornDown.allShut {rest : List Entry} {s u : State} (h : s.TornDown rest u) : u.AllShut := fun id => by
  rw [h.queues]

/-- An E held in the debugger wait tries again. -/
theorem resume_debugger {s : State} (he : s.e = { status := .live, held := some .debugger }) :
    resume .e s = dstepFromWait s.freeE := by
  simp [resume, he, runHeld]

/-- An E held in the debugger wait at a breakpoint is stopped there again, its DSTEP done (45_debugger.md R434, R438). -/
theorem State.TornDown.resume_atBreakpoint {rest : List Entry} {s u : State} (h : s.TornDown rest u)
    (he : s.e = { status := .live, held := some .debugger }) (hpc : BitVec.ofNat 24 s.core.pc ∈ s.dbg.bps) :
    resume .e u = doneUnit { u with
      e := { status := .live, held := none }
      dbg := { s.dbg with mode := .stopped } } := by
  have hpcu : u.freeE.getPc ∈ u.freeE.dbg.bps := by
    rw [State.getPc, State.freeE_core, State.freeE_dbg, h.core, h.dbg]
    exact hpc
  rw [resume_debugger (h.e.trans he), dstepFromWait_atBreakpoint (s := u.freeE) (congrArg DbgState.mode h.dbg) hpcu]
  simp [State.freeE, State.setMode, h.dbg, h.e, he]

/-- An E held in the debugger wait elsewhere runs its instruction, which holds nowhere (45_debugger.md R434, R438). -/
theorem State.TornDown.resume_runs {rest : List Entry} {s u : State} (h : s.TornDown rest u)
    (he : s.e = { status := .live, held := some .debugger }) (hpc : BitVec.ofNat 24 s.core.pc ∉ s.dbg.bps) (hm : s.Mapped) :
    resume .e u = .fault .peekEmpty ∧ .read .x 0x94#24 .bitTest ∈ s.core.next.txns ∨
    ∃ x, resume .e u = .next x ∧
      (x.e = { status := .aborted, held := none } ∨
        (x.e = { status := .live, held := none } ∧ x.dbg = { s.dbg with mode := .running none } ∧
          x.core = { s.core with counter := s.core.next.counter, pc := s.core.next.pc })) := by
  have hpcu : u.freeE.getPc ∉ u.freeE.dbg.bps := by
    rw [State.getPc, State.freeE_core, State.freeE_dbg, h.core, h.dbg]
    exact hpc
  have hfree : u.freeE.e = { status := .live, held := none } := by simp [h.e, he]
  have hshut : u.freeE.AllShut := h.allShut.of_queue u.freeE_queue
  rw [resume_debugger (h.e.trans he), dstepFromWait_runs (s := u.freeE) (congrArg DbgState.mode h.dbg) hpcu]
  rcases coreTxns_released (s := u.freeE) (h.map.trans hm) hshut hfree with ⟨hfault, hmem⟩ | ⟨x, hx, hrel⟩
  · exact .inl ⟨hfault, h.core ▸ hmem⟩
  · rw [State.Released, State.freeE_dbg, State.freeE_core, h.dbg, h.core] at hrel
    exact .inr ⟨x, hx, hrel⟩

/-- Settles O45: after the two steps every queue is shut and the debugger is running, so nothing that a held agent waits for keeps it. -/
theorem teardownReleasesEveryone : Obligations.TeardownReleasesEveryone := by
  intro s rest hs hfree
  obtain ⟨t, u, ht, hu, h⟩ := teardown_steps hs hfree
  exact ⟨t, u, ht, hu, h.sched, h.dbg, h.queues, h.e, h.hosts, h.core,
    fun p fr he => resume_queue_of_allShut h.allShut (h.e.trans he),
    fun n op hop => resume_host_of_allShut h.allShut hop,
    fun he hpc => h.resume_atBreakpoint he hpc,
    fun he hpc hm => h.resume_runs he hpc hm⟩

end Sys2Proof.Machine
